-- ==== Sys2Proof/Word.lean ====
section
/-! DEFINITION. The two widths of the machine (R4, R8): 8-bit data and 16-bit addresses. Arithmetic on them wraps. -/

namespace Sys2Proof

/-- Data width: A, X, Y, SP and the bus data (R4). -/
abbrev Byte := BitVec 8

/-- Address width: PC and the bus address (R4). -/
abbrev Word := BitVec 16

end Sys2Proof
end

