-- ==== Sys2Proof/Machine/Bits.lean ====
section
/-! DEFINITION. Byte order and widening (R8, R33, R34): the one place where a 16-bit value meets its two bytes. -/

namespace Sys2Proof

/-- The concatenation `{hi, lo}` of R8. -/
def mkWord (hi lo : Byte) : Word := hi ++ lo

/-- `w[7:0]`. -/
def loByte (w : Word) : Byte := w.extractLsb' 0 8

/-- `w[15:8]`, the page of an address. -/
def hiByte (w : Word) : Byte := w.extractLsb' 8 8

/-- `zext_16` of R8. -/
def zext16 (b : Byte) : Word := b.setWidth 16

end Sys2Proof
end

