-- ==== Sys2Proof/Machine/Flags.lean ====
section
/-! DEFINITION. The sub-block `status_flags` (R15 to R19): the seven stored flags, the status byte built from them and
taken apart, and the flag computations that the instruction rules share (R100, R122). -/

namespace Sys2Proof.Machine

/-- The seven stored flags (R15). The Unused bit is not stored (R16). -/
structure Flags where
  /-- Negative -/
  n : Bool
  /-- Overflow -/
  v : Bool
  /-- Break: no instruction reads or writes it (R19) -/
  b : Bool
  /-- Decimal -/
  d : Bool
  /-- InterruptDisable -/
  i : Bool
  /-- Zero -/
  z : Bool
  /-- Carry -/
  c : Bool
  deriving DecidableEq, Repr

/-- `ToByte(b4) = {N, V, 1, b4, D, I, Z, C}` (R16, R17). -/
def Flags.toByte (f : Flags) (b4 : Bool) : Byte :=
  BitVec.ofBool f.n ++ BitVec.ofBool f.v ++ BitVec.ofBool true ++ BitVec.ofBool b4 ++
    BitVec.ofBool f.d ++ BitVec.ofBool f.i ++ BitVec.ofBool f.z ++ BitVec.ofBool f.c

/-- `FromByte(v)`: N, V, D, I, Z, C from bits 7, 6, 3, 2, 1, 0; bits 5 and 4 are ignored and B is kept (R18). -/
def Flags.fromByte (v : Byte) (f : Flags) : Flags :=
  { f with
    n := v.getLsbD 7, v := v.getLsbD 6, d := v.getLsbD 3, i := v.getLsbD 2, z := v.getLsbD 1, c := v.getLsbD 0 }

/-- `SetZN(v)`: `Z <- (v == 0); N <- v[7]` (R100). -/
def Flags.setZN (v : Byte) (f : Flags) : Flags := { f with z := v == 0, n := v.getLsbD 7 }

/-- The kind of operation of R122. -/
inductive ArithKind where
  | add | sub
  deriving DecidableEq, Repr

/-- `Overflow(a, m, r, kind)`, the signed overflow of two operands and a result (R122). -/
def overflow (a m r : Byte) : ArithKind → Bool
  | .add => ((a ^^^ r) &&& (m ^^^ r)).getLsbD 7
  | .sub => ((a ^^^ r) &&& (a ^^^ m)).getLsbD 7

/-- The eight names of the status byte's bits (R16). -/
inductive FlagName where
  | n | v | unused | b | d | i | z | c
  deriving DecidableEq, Repr

/-- The bit position of a name in the status byte (R16). -/
def FlagName.bit : FlagName → Nat
  | .n => 7 | .v => 6 | .unused => 5 | .b => 4 | .d => 3 | .i => 2 | .z => 1 | .c => 0

/-- The read-only flag accessor of R24; Unused reads 1 (R16, D26). -/
def Flags.get (f : Flags) : FlagName → Bool
  | .n => f.n | .v => f.v | .unused => true | .b => f.b | .d => f.d | .i => f.i | .z => f.z | .c => f.c

end Sys2Proof.Machine
end

