-- ==== Sys2Proof/Machine/Alu.lean ====
section
/-! DEFINITION. The sub-block `alu_unit`: each operation on an operand byte and the flags, giving the result byte and
the flags after it (R120 to R146). Sums are exact natural numbers, narrowed at the end (R8). Decimal mode is not
implemented: no operation reads D (R123). -/

namespace Sys2Proof.Machine

/-- ADC (R120): the low byte of `A + m + C`; C is the carry out of bit 7, V the signed overflow, Z and N from the
result. -/
def addWithCarry (a m : Byte) (f : Flags) : Byte × Flags :=
  let sum := a.toNat + m.toNat + f.c.toNat
  let r : Byte := BitVec.ofNat 8 sum
  (r, Flags.setZN r { f with v := overflow a m r .add, c := decide (0xFF < sum) })

/-- SBC (R121): `A + (m ^ 0xFF) + C`, so C = 1 means no borrow. -/
def subWithBorrow (a m : Byte) (f : Flags) : Byte × Flags :=
  let sum := a.toNat + (m ^^^ 0xFF).toNat + f.c.toNat
  let r : Byte := BitVec.ofNat 8 sum
  (r, Flags.setZN r { f with v := overflow a m r .sub, c := decide (0xFF < sum) })

/-- CMP, CPX, CPY (R127 to R129): `r + (m ^ 0xFF) + 1` writes C, Z and N; the result is discarded. -/
def compareFlags (r m : Byte) (f : Flags) : Flags :=
  let t := r.toNat + (m ^^^ 0xFF).toNat + 1
  Flags.setZN (BitVec.ofNat 8 t) { f with c := decide (0xFF < t) }

/-- BIT (R130): Z from `A & m`, N and V from bits 7 and 6 of the operand. -/
def bitTestFlags (a m : Byte) (f : Flags) : Flags :=
  { f with z := (a &&& m) == 0, n := m.getLsbD 7, v := m.getLsbD 6 }

/-- A flag as the byte 0 or 1. -/
def flagByte (c : Bool) : Byte := (BitVec.ofBool c).setWidth 8

/-- ASL (R140): one bit left, 0 into bit 0, bit 7 into C. -/
def shiftLeft (v : Byte) (f : Flags) : Byte × Flags :=
  let r := v <<< 1
  (r, Flags.setZN r { f with c := v.getLsbD 7 })

/-- LSR (R141): one bit right, 0 into bit 7, bit 0 into C. -/
def shiftRight (v : Byte) (f : Flags) : Byte × Flags :=
  let r := v >>> 1
  (r, Flags.setZN r { f with c := v.getLsbD 0 })

/-- ROL (R142): one bit left, the old C into bit 0, bit 7 into C. -/
def rotateLeft (v : Byte) (f : Flags) : Byte × Flags :=
  let r := (v <<< 1) ||| flagByte f.c
  (r, Flags.setZN r { f with c := v.getLsbD 7 })

/-- ROR (R143): one bit right, the old C into bit 7, bit 0 into C. -/
def rotateRight (v : Byte) (f : Flags) : Byte × Flags :=
  let r := (v >>> 1) ||| (flagByte f.c <<< 7)
  (r, Flags.setZN r { f with c := v.getLsbD 0 })

/-- INC, INX, INY (R145, R147, R148): plus 1 modulo 256. -/
def increment (v : Byte) (f : Flags) : Byte × Flags :=
  let r := v + 1
  (r, Flags.setZN r f)

/-- DEC, DEX, DEY (R146, R149, R150): minus 1 modulo 256. -/
def decrement (v : Byte) (f : Flags) : Byte × Flags :=
  let r := v - 1
  (r, Flags.setZN r f)

end Sys2Proof.Machine
end

