-- ==== Sys2Proof/Config.lean ====
section
/-! DEFINITION. The implementation parameters of R4, each at the value the spec gives it. DECIMAL_ENABLED is false and
no BCD arithmetic is specified, so no definition reads it (R123); CYCLES stands in the opcode table (R53, R236). -/

namespace Sys2Proof

/-- POWER_ON_FLAGS: I = 1 and every other stored flag 0 (R4, R22; the spec's decision D1, log 3). -/
def Config.powerOnFlags : Machine.Flags :=
  { n := false, v := false, b := false, d := false, i := true, z := false, c := false }

/-- SP_INIT (R4, R22, R231). -/
def Config.spInit : Byte := 0xFD

/-- TXS_UPDATES_NZ, true as the document has it (R4, R112; the spec's decision D12, log 7). -/
def Config.txsUpdatesNZ : Bool := true

end Sys2Proof
end

