-- ==== Sys2Proof/Machine/Memory.lean ====
section
/-! DEFINITION. The memory behind the bus (R30, R31): 65536 bytes, held as a list of cells in one canonical form:
addresses strictly rising and below 65536, and no cell equal to what an unlisted address reads as. Every address
may be read and written and no access faults (R32, R42). -/

namespace Sys2Proof.Machine

/-- The listed cells of the 64 KiB space (R30). -/
abbrev Memory := List Host.Cell

/-- What an unlisted address reads as (DESIGN CHOICE, unsafe, log 1). -/
def Memory.unlisted : Byte := 0x00

/-- The canonical form. -/
abbrev Memory.wf (m : Memory) : Prop :=
  m.Pairwise (fun p q => p.1 < q.1) ∧ ∀ cell ∈ m, cell.1 < 65536 ∧ cell.2 ≠ Memory.unlisted

/-- The byte at a key. -/
def Memory.lookup : Memory → Nat → Byte
  | [], _ => Memory.unlisted
  | (k, v) :: rest, a => if k = a then v else Memory.lookup rest a

/-- Put a cell before the first cell with a greater key. -/
def Memory.insert : Memory → Nat → Byte → Memory
  | [], a, v => [(a, v)]
  | (k, w) :: rest, a, v => if a < k then (a, v) :: (k, w) :: rest else (k, w) :: Memory.insert rest a v

/-- Drop every cell of a key. -/
def Memory.erase (m : Memory) (a : Nat) : Memory := m.filter fun cell => cell.1 != a

/-- The bus transaction `read(addr)` (R31). -/
def Memory.read (m : Memory) (addr : Word) : Byte := m.lookup addr.toNat

/-- The bus transaction `write(addr, v)` (R31). -/
def Memory.write (m : Memory) (addr : Word) (v : Byte) : Memory :=
  if v = Memory.unlisted then m.erase addr.toNat else (m.erase addr.toNat).insert addr.toNat v

end Sys2Proof.Machine
end

