-- ==== Sys2Proof/Machine/State.lean ====
section
/-! DEFINITION. The state of the machine (R10 to R22), the reasons a step can stop, and the state after reset. -/

namespace Sys2Proof.Machine

/-- Everything the spec gives the machine: the registers, the stored flags and the two interrupt latches of the core
(R10 to R20), and the memory behind its bus (R30). Nothing else is state (R21, R27). -/
structure State where
  /-- accumulator (R10) -/
  a : Byte
  /-- index register X (R11) -/
  x : Byte
  /-- index register Y (R12) -/
  y : Byte
  /-- stack pointer, naming the slot at 0x0100 + SP (R13) -/
  sp : Byte
  /-- program counter (R14) -/
  pc : Word
  /-- the seven stored flags (R15) -/
  flags : Flags
  /-- the NMI latch (R20) -/
  nmiPending : Bool
  /-- the IRQ latch (R20) -/
  irqPending : Bool
  /-- the memory behind the bus (R30) -/
  mem : Memory
  deriving DecidableEq, Repr

/-- The one error of the machine. -/
inductive Fault where
  /-- Raised by `step` when the byte fetched as an opcode has no table entry (R55, R202): the byte, and the address
  it was fetched from. Safe: the run stops where the spec reports an error to the environment (log 6). -/
  | illegalOpcode (opcode : Byte) (pc : Word)
  deriving DecidableEq, Repr

/-- Why an instruction has no meaning. -/
inductive Refusal where
  /-- Raised by an arm of `exec` whose instruction has no meaning yet; no arm does. Safe. -/
  | notModelled (mnemonic : String)
  deriving DecidableEq, Repr

/-- What a step and every meaning answer. -/
abbrev Result := Host.Outcome State Fault Refusal

/-- The core's state after `power_on()` (R22, R230), on a given memory: `power_on` makes no bus access. -/
def State.powerOn (mem : Memory) : State :=
  { a := 0, x := 0, y := 0, sp := Config.spInit, pc := 0, flags := Config.powerOnFlags,
    nmiPending := false, irqPending := false, mem := mem }

/-- The machine after `power_on(); reset()` on a memory with nothing listed (R232; log 4). PC is the word at the
reset vector 0xFFFC, whose two bytes are unlisted and read 0x00 (log 1). -/
def State.reset : State :=
  { a := 0, x := 0, y := 0, sp := 0xFD, pc := 0x0000,
    flags := { n := false, v := false, b := false, d := false, i := true, z := false, c := false },
    nmiPending := false, irqPending := false, mem := [] }

end Sys2Proof.Machine
end

