-- ==== Sys2Proof/Machine/Ops.lean ====
section
/-! DEFINITION. The named operations over memory and registers: the bus, the stack (the sub-block `pc_stack_ctrl`),
taking an interrupt and returning from one (the sub-block `interrupt_sequencer`), and the reset sequence. -/

namespace Sys2Proof.Machine

/-- `MemRead(addr, 1)` (R31). -/
def State.read (s : State) (addr : Word) : Byte := s.mem.read addr

/-- `MemWrite(addr, 1, v)` (R31). -/
def State.write (s : State) (addr : Word) (v : Byte) : State := { s with mem := s.mem.write addr v }

/-- `ReadWord(addr)`: low byte at `addr`, high byte at `addr + 1` modulo 65536 (R33). -/
def State.readWord (s : State) (addr : Word) : Word := mkWord (s.read (addr + 1)) (s.read addr)

/-- The vectors (R41, R208). -/
def nmiVector : Word := 0xFFFA

def resetVector : Word := 0xFFFC

def irqVector : Word := 0xFFFE

/-- The stack slot a stack pointer names: `{0x01, SP}` (R13, R37). -/
def stackSlot (sp : Byte) : Word := mkWord 0x01 sp

/-- `Push(v)`: store, then decrement (R38). -/
def State.push (s : State) (v : Byte) : State := { s.write (stackSlot s.sp) v with sp := s.sp - 1 }

/-- The byte `Pop()` returns: the one above the stack pointer (R38). -/
def State.top (s : State) : Byte := s.read (stackSlot (s.sp + 1))

/-- The state `Pop()` leaves: the stack pointer incremented (R38). -/
def State.pop (s : State) : State := { s with sp := s.sp + 1 }

/-- `PushWord(w)`: high byte first, then low byte (R39). -/
def State.pushWord (s : State) (w : Word) : State := (s.push (hiByte w)).push (loByte w)

/-- The word `PopWord()` returns: low byte first, then high byte (R39). -/
def State.topWord (s : State) : Word := mkWord s.pop.top s.top

/-- The state `PopWord()` leaves (R39). -/
def State.popWord (s : State) : State := s.pop.pop

/-- The registers an instruction loads with Z and N set from the value (R100). -/
def State.loadA (s : State) (v : Byte) : State := { s with a := v, flags := s.flags.setZN v }

def State.loadX (s : State) (v : Byte) : State := { s with x := v, flags := s.flags.setZN v }

def State.loadY (s : State) (v : Byte) : State := { s with y := v, flags := s.flags.setZN v }

/-- `InterruptEntry(vector, b4)`, shared by NMI, IRQ and BRK (R207): push PC, push the status byte with bit 4 = `b4`,
set I, load PC from the vector. -/
def State.interruptEntry (s : State) (vector : Word) (b4 : Bool) : State :=
  let pushed := (s.pushWord s.pc).push (s.flags.toByte b4)
  { pushed with flags := { pushed.flags with i := true }, pc := pushed.readWord vector }

/-- The return from an interrupt (R184, R210): the status byte with bits 5 and 4 ignored, then PC with no increment. -/
def State.interruptReturn (s : State) : State :=
  { s.pop.popWord with flags := s.flags.fromByte s.top, pc := s.pop.topWord }

/-- `Reset()` (R231, R232): I, SP and PC are written and nothing else. -/
def State.resetSequence (s : State) : State :=
  { s with flags := { s.flags with i := true }, sp := Config.spInit, pc := s.readWord resetVector }

end Sys2Proof.Machine
end

