-- ==== Sys2Proof/Syntax.lean ====
section
/-! DEFINITION. The instructions as syntax: one constructor of `Instr` per row of spec/opcode_table.json
(R54, R59), its arguments the operand field of the row (R51, R52), and the two tags a table entry carries
(R53): its mnemonic and its operand with the addressing mode. -/

namespace Sys2Proof

/-- The thirteen addressing modes (R51). -/
inductive Mode where
  | implied | accumulator | immediate | zeroPage | zeroPageX | zeroPageY | absolute | absoluteX | absoluteY
  | indirect | indirectX | indirectY | relative
  deriving DecidableEq, Repr

/-- The nine modes whose operand is an address, each with the operand field of its bytes (R74 to R82). -/
inductive MemOperand where
  | zeroPage (z : Byte)
  | zeroPageX (z : Byte)
  | zeroPageY (z : Byte)
  | absolute (a : Word)
  | absoluteX (a : Word)
  | absoluteY (a : Word)
  | indirect (p : Word)
  | indirectX (z : Byte)
  | indirectY (z : Byte)
  deriving DecidableEq, Repr

/-- An addressing mode with the operand field its bytes give (R51, R52).
The field of Relative is the signed offset itself (DESIGN CHOICE, safe, log 12). -/
inductive Operand where
  | implied
  | accumulator
  | immediate (v : Byte)
  | memory (m : MemOperand)
  | relative (r : Int)
  deriving DecidableEq, Repr

def MemOperand.mode : MemOperand → Mode
  | .zeroPage _ => .zeroPage
  | .zeroPageX _ => .zeroPageX
  | .zeroPageY _ => .zeroPageY
  | .absolute _ => .absolute
  | .absoluteX _ => .absoluteX
  | .absoluteY _ => .absoluteY
  | .indirect _ => .indirect
  | .indirectX _ => .indirectX
  | .indirectY _ => .indirectY

def Operand.mode : Operand → Mode
  | .implied => .implied
  | .accumulator => .accumulator
  | .immediate _ => .immediate
  | .memory m => m.mode
  | .relative _ => .relative

/-- The 56 mnemonics (R61). -/
inductive Mnemonic where
  | lda | ldx | ldy | sta | stx | sty | tax | txa | tay | tya | tsx | txs | adc | sbc
  | and | ora | eor | cmp | cpx | cpy | bit | asl | lsr | rol | ror | inc | dec | inx
  | iny | dex | dey | beq | bne | bcc | bcs | bmi | bpl | bvc | bvs | jmp | jsr | rts
  | pha | pla | php | plp | rti | brk | clc | sec | cli | sei | clv | cld | sed | nop
  deriving DecidableEq, Repr

/-- The 151 defined instructions (R54, R59), in the order of spec/opcode_table.json.
`Imm` Immediate, `Zp` ZeroPage, `ZpX` and `ZpY` its indexed forms, `Abs` Absolute, `AbsX` and `AbsY` its indexed
forms, `Ind` Indirect, `IndX` IndirectX, `IndY` IndirectY, `Acc` Accumulator; a name with no suffix is the one
form, Implied or Relative, that its mnemonic has. -/
inductive Instr where
  | ldaImm (v : Byte)
  | ldaZp (z : Byte)
  | ldaZpX (z : Byte)
  | ldaAbs (a : Word)
  | ldaAbsX (a : Word)
  | ldaAbsY (a : Word)
  | ldaIndX (z : Byte)
  | ldaIndY (z : Byte)
  | ldxImm (v : Byte)
  | ldxZp (z : Byte)
  | ldxZpY (z : Byte)
  | ldxAbs (a : Word)
  | ldxAbsY (a : Word)
  | ldyImm (v : Byte)
  | ldyZp (z : Byte)
  | ldyZpX (z : Byte)
  | ldyAbs (a : Word)
  | ldyAbsX (a : Word)
  | staZp (z : Byte)
  | staZpX (z : Byte)
  | staAbs (a : Word)
  | staAbsX (a : Word)
  | staAbsY (a : Word)
  | staIndX (z : Byte)
  | staIndY (z : Byte)
  | stxZp (z : Byte)
  | stxZpY (z : Byte)
  | stxAbs (a : Word)
  | styZp (z : Byte)
  | styZpX (z : Byte)
  | styAbs (a : Word)
  | tax
  | txa
  | tay
  | tya
  | tsx
  | txs
  | adcImm (v : Byte)
  | adcZp (z : Byte)
  | adcZpX (z : Byte)
  | adcAbs (a : Word)
  | adcAbsX (a : Word)
  | adcAbsY (a : Word)
  | adcIndX (z : Byte)
  | adcIndY (z : Byte)
  | sbcImm (v : Byte)
  | sbcZp (z : Byte)
  | sbcZpX (z : Byte)
  | sbcAbs (a : Word)
  | sbcAbsX (a : Word)
  | sbcAbsY (a : Word)
  | sbcIndX (z : Byte)
  | sbcIndY (z : Byte)
  | andImm (v : Byte)
  | andZp (z : Byte)
  | andZpX (z : Byte)
  | andAbs (a : Word)
  | andAbsX (a : Word)
  | andAbsY (a : Word)
  | andIndX (z : Byte)
  | andIndY (z : Byte)
  | oraImm (v : Byte)
  | oraZp (z : Byte)
  | oraZpX (z : Byte)
  | oraAbs (a : Word)
  | oraAbsX (a : Word)
  | oraAbsY (a : Word)
  | oraIndX (z : Byte)
  | oraIndY (z : Byte)
  | eorImm (v : Byte)
  | eorZp (z : Byte)
  | eorZpX (z : Byte)
  | eorAbs (a : Word)
  | eorAbsX (a : Word)
  | eorAbsY (a : Word)
  | eorIndX (z : Byte)
  | eorIndY (z : Byte)
  | cmpImm (v : Byte)
  | cmpZp (z : Byte)
  | cmpZpX (z : Byte)
  | cmpAbs (a : Word)
  | cmpAbsX (a : Word)
  | cmpAbsY (a : Word)
  | cmpIndX (z : Byte)
  | cmpIndY (z : Byte)
  | cpxImm (v : Byte)
  | cpxZp (z : Byte)
  | cpxAbs (a : Word)
  | cpyImm (v : Byte)
  | cpyZp (z : Byte)
  | cpyAbs (a : Word)
  | bitZp (z : Byte)
  | bitAbs (a : Word)
  | aslAcc
  | aslZp (z : Byte)
  | aslZpX (z : Byte)
  | aslAbs (a : Word)
  | aslAbsX (a : Word)
  | lsrAcc
  | lsrZp (z : Byte)
  | lsrZpX (z : Byte)
  | lsrAbs (a : Word)
  | lsrAbsX (a : Word)
  | rolAcc
  | rolZp (z : Byte)
  | rolZpX (z : Byte)
  | rolAbs (a : Word)
  | rolAbsX (a : Word)
  | rorAcc
  | rorZp (z : Byte)
  | rorZpX (z : Byte)
  | rorAbs (a : Word)
  | rorAbsX (a : Word)
  | incZp (z : Byte)
  | incZpX (z : Byte)
  | incAbs (a : Word)
  | incAbsX (a : Word)
  | decZp (z : Byte)
  | decZpX (z : Byte)
  | decAbs (a : Word)
  | decAbsX (a : Word)
  | inx
  | iny
  | dex
  | dey
  | beq (r : Int)
  | bne (r : Int)
  | bcc (r : Int)
  | bcs (r : Int)
  | bmi (r : Int)
  | bpl (r : Int)
  | bvc (r : Int)
  | bvs (r : Int)
  | jmpAbs (a : Word)
  | jmpInd (p : Word)
  | jsrAbs (a : Word)
  | rts
  | pha
  | pla
  | php
  | plp
  | rti
  | brk
  | clc
  | sec
  | cli
  | sei
  | clv
  | cld
  | sed
  | nop
  deriving DecidableEq, Repr

/-- The semantics tag of the instruction's table entry (R53, R59). -/
def Instr.mnemonic : Instr → Mnemonic
  | .ldaImm _ => .lda
  | .ldaZp _ => .lda
  | .ldaZpX _ => .lda
  | .ldaAbs _ => .lda
  | .ldaAbsX _ => .lda
  | .ldaAbsY _ => .lda
  | .ldaIndX _ => .lda
  | .ldaIndY _ => .lda
  | .ldxImm _ => .ldx
  | .ldxZp _ => .ldx
  | .ldxZpY _ => .ldx
  | .ldxAbs _ => .ldx
  | .ldxAbsY _ => .ldx
  | .ldyImm _ => .ldy
  | .ldyZp _ => .ldy
  | .ldyZpX _ => .ldy
  | .ldyAbs _ => .ldy
  | .ldyAbsX _ => .ldy
  | .staZp _ => .sta
  | .staZpX _ => .sta
  | .staAbs _ => .sta
  | .staAbsX _ => .sta
  | .staAbsY _ => .sta
  | .staIndX _ => .sta
  | .staIndY _ => .sta
  | .stxZp _ => .stx
  | .stxZpY _ => .stx
  | .stxAbs _ => .stx
  | .styZp _ => .sty
  | .styZpX _ => .sty
  | .styAbs _ => .sty
  | .tax => .tax
  | .txa => .txa
  | .tay => .tay
  | .tya => .tya
  | .tsx => .tsx
  | .txs => .txs
  | .adcImm _ => .adc
  | .adcZp _ => .adc
  | .adcZpX _ => .adc
  | .adcAbs _ => .adc
  | .adcAbsX _ => .adc
  | .adcAbsY _ => .adc
  | .adcIndX _ => .adc
  | .adcIndY _ => .adc
  | .sbcImm _ => .sbc
  | .sbcZp _ => .sbc
  | .sbcZpX _ => .sbc
  | .sbcAbs _ => .sbc
  | .sbcAbsX _ => .sbc
  | .sbcAbsY _ => .sbc
  | .sbcIndX _ => .sbc
  | .sbcIndY _ => .sbc
  | .andImm _ => .and
  | .andZp _ => .and
  | .andZpX _ => .and
  | .andAbs _ => .and
  | .andAbsX _ => .and
  | .andAbsY _ => .and
  | .andIndX _ => .and
  | .andIndY _ => .and
  | .oraImm _ => .ora
  | .oraZp _ => .ora
  | .oraZpX _ => .ora
  | .oraAbs _ => .ora
  | .oraAbsX _ => .ora
  | .oraAbsY _ => .ora
  | .oraIndX _ => .ora
  | .oraIndY _ => .ora
  | .eorImm _ => .eor
  | .eorZp _ => .eor
  | .eorZpX _ => .eor
  | .eorAbs _ => .eor
  | .eorAbsX _ => .eor
  | .eorAbsY _ => .eor
  | .eorIndX _ => .eor
  | .eorIndY _ => .eor
  | .cmpImm _ => .cmp
  | .cmpZp _ => .cmp
  | .cmpZpX _ => .cmp
  | .cmpAbs _ => .cmp
  | .cmpAbsX _ => .cmp
  | .cmpAbsY _ => .cmp
  | .cmpIndX _ => .cmp
  | .cmpIndY _ => .cmp
  | .cpxImm _ => .cpx
  | .cpxZp _ => .cpx
  | .cpxAbs _ => .cpx
  | .cpyImm _ => .cpy
  | .cpyZp _ => .cpy
  | .cpyAbs _ => .cpy
  | .bitZp _ => .bit
  | .bitAbs _ => .bit
  | .aslAcc => .asl
  | .aslZp _ => .asl
  | .aslZpX _ => .asl
  | .aslAbs _ => .asl
  | .aslAbsX _ => .asl
  | .lsrAcc => .lsr
  | .lsrZp _ => .lsr
  | .lsrZpX _ => .lsr
  | .lsrAbs _ => .lsr
  | .lsrAbsX _ => .lsr
  | .rolAcc => .rol
  | .rolZp _ => .rol
  | .rolZpX _ => .rol
  | .rolAbs _ => .rol
  | .rolAbsX _ => .rol
  | .rorAcc => .ror
  | .rorZp _ => .ror
  | .rorZpX _ => .ror
  | .rorAbs _ => .ror
  | .rorAbsX _ => .ror
  | .incZp _ => .inc
  | .incZpX _ => .inc
  | .incAbs _ => .inc
  | .incAbsX _ => .inc
  | .decZp _ => .dec
  | .decZpX _ => .dec
  | .decAbs _ => .dec
  | .decAbsX _ => .dec
  | .inx => .inx
  | .iny => .iny
  | .dex => .dex
  | .dey => .dey
  | .beq _ => .beq
  | .bne _ => .bne
  | .bcc _ => .bcc
  | .bcs _ => .bcs
  | .bmi _ => .bmi
  | .bpl _ => .bpl
  | .bvc _ => .bvc
  | .bvs _ => .bvs
  | .jmpAbs _ => .jmp
  | .jmpInd _ => .jmp
  | .jsrAbs _ => .jsr
  | .rts => .rts
  | .pha => .pha
  | .pla => .pla
  | .php => .php
  | .plp => .plp
  | .rti => .rti
  | .brk => .brk
  | .clc => .clc
  | .sec => .sec
  | .cli => .cli
  | .sei => .sei
  | .clv => .clv
  | .cld => .cld
  | .sed => .sed
  | .nop => .nop

/-- The addressing mode of the instruction's table entry with the operand field of its bytes (R53, R59). -/
def Instr.operand : Instr → Operand
  | .ldaImm v => .immediate v
  | .ldaZp z => .memory (.zeroPage z)
  | .ldaZpX z => .memory (.zeroPageX z)
  | .ldaAbs a => .memory (.absolute a)
  | .ldaAbsX a => .memory (.absoluteX a)
  | .ldaAbsY a => .memory (.absoluteY a)
  | .ldaIndX z => .memory (.indirectX z)
  | .ldaIndY z => .memory (.indirectY z)
  | .ldxImm v => .immediate v
  | .ldxZp z => .memory (.zeroPage z)
  | .ldxZpY z => .memory (.zeroPageY z)
  | .ldxAbs a => .memory (.absolute a)
  | .ldxAbsY a => .memory (.absoluteY a)
  | .ldyImm v => .immediate v
  | .ldyZp z => .memory (.zeroPage z)
  | .ldyZpX z => .memory (.zeroPageX z)
  | .ldyAbs a => .memory (.absolute a)
  | .ldyAbsX a => .memory (.absoluteX a)
  | .staZp z => .memory (.zeroPage z)
  | .staZpX z => .memory (.zeroPageX z)
  | .staAbs a => .memory (.absolute a)
  | .staAbsX a => .memory (.absoluteX a)
  | .staAbsY a => .memory (.absoluteY a)
  | .staIndX z => .memory (.indirectX z)
  | .staIndY z => .memory (.indirectY z)
  | .stxZp z => .memory (.zeroPage z)
  | .stxZpY z => .memory (.zeroPageY z)
  | .stxAbs a => .memory (.absolute a)
  | .styZp z => .memory (.zeroPage z)
  | .styZpX z => .memory (.zeroPageX z)
  | .styAbs a => .memory (.absolute a)
  | .tax => .implied
  | .txa => .implied
  | .tay => .implied
  | .tya => .implied
  | .tsx => .implied
  | .txs => .implied
  | .adcImm v => .immediate v
  | .adcZp z => .memory (.zeroPage z)
  | .adcZpX z => .memory (.zeroPageX z)
  | .adcAbs a => .memory (.absolute a)
  | .adcAbsX a => .memory (.absoluteX a)
  | .adcAbsY a => .memory (.absoluteY a)
  | .adcIndX z => .memory (.indirectX z)
  | .adcIndY z => .memory (.indirectY z)
  | .sbcImm v => .immediate v
  | .sbcZp z => .memory (.zeroPage z)
  | .sbcZpX z => .memory (.zeroPageX z)
  | .sbcAbs a => .memory (.absolute a)
  | .sbcAbsX a => .memory (.absoluteX a)
  | .sbcAbsY a => .memory (.absoluteY a)
  | .sbcIndX z => .memory (.indirectX z)
  | .sbcIndY z => .memory (.indirectY z)
  | .andImm v => .immediate v
  | .andZp z => .memory (.zeroPage z)
  | .andZpX z => .memory (.zeroPageX z)
  | .andAbs a => .memory (.absolute a)
  | .andAbsX a => .memory (.absoluteX a)
  | .andAbsY a => .memory (.absoluteY a)
  | .andIndX z => .memory (.indirectX z)
  | .andIndY z => .memory (.indirectY z)
  | .oraImm v => .immediate v
  | .oraZp z => .memory (.zeroPage z)
  | .oraZpX z => .memory (.zeroPageX z)
  | .oraAbs a => .memory (.absolute a)
  | .oraAbsX a => .memory (.absoluteX a)
  | .oraAbsY a => .memory (.absoluteY a)
  | .oraIndX z => .memory (.indirectX z)
  | .oraIndY z => .memory (.indirectY z)
  | .eorImm v => .immediate v
  | .eorZp z => .memory (.zeroPage z)
  | .eorZpX z => .memory (.zeroPageX z)
  | .eorAbs a => .memory (.absolute a)
  | .eorAbsX a => .memory (.absoluteX a)
  | .eorAbsY a => .memory (.absoluteY a)
  | .eorIndX z => .memory (.indirectX z)
  | .eorIndY z => .memory (.indirectY z)
  | .cmpImm v => .immediate v
  | .cmpZp z => .memory (.zeroPage z)
  | .cmpZpX z => .memory (.zeroPageX z)
  | .cmpAbs a => .memory (.absolute a)
  | .cmpAbsX a => .memory (.absoluteX a)
  | .cmpAbsY a => .memory (.absoluteY a)
  | .cmpIndX z => .memory (.indirectX z)
  | .cmpIndY z => .memory (.indirectY z)
  | .cpxImm v => .immediate v
  | .cpxZp z => .memory (.zeroPage z)
  | .cpxAbs a => .memory (.absolute a)
  | .cpyImm v => .immediate v
  | .cpyZp z => .memory (.zeroPage z)
  | .cpyAbs a => .memory (.absolute a)
  | .bitZp z => .memory (.zeroPage z)
  | .bitAbs a => .memory (.absolute a)
  | .aslAcc => .accumulator
  | .aslZp z => .memory (.zeroPage z)
  | .aslZpX z => .memory (.zeroPageX z)
  | .aslAbs a => .memory (.absolute a)
  | .aslAbsX a => .memory (.absoluteX a)
  | .lsrAcc => .accumulator
  | .lsrZp z => .memory (.zeroPage z)
  | .lsrZpX z => .memory (.zeroPageX z)
  | .lsrAbs a => .memory (.absolute a)
  | .lsrAbsX a => .memory (.absoluteX a)
  | .rolAcc => .accumulator
  | .rolZp z => .memory (.zeroPage z)
  | .rolZpX z => .memory (.zeroPageX z)
  | .rolAbs a => .memory (.absolute a)
  | .rolAbsX a => .memory (.absoluteX a)
  | .rorAcc => .accumulator
  | .rorZp z => .memory (.zeroPage z)
  | .rorZpX z => .memory (.zeroPageX z)
  | .rorAbs a => .memory (.absolute a)
  | .rorAbsX a => .memory (.absoluteX a)
  | .incZp z => .memory (.zeroPage z)
  | .incZpX z => .memory (.zeroPageX z)
  | .incAbs a => .memory (.absolute a)
  | .incAbsX a => .memory (.absoluteX a)
  | .decZp z => .memory (.zeroPage z)
  | .decZpX z => .memory (.zeroPageX z)
  | .decAbs a => .memory (.absolute a)
  | .decAbsX a => .memory (.absoluteX a)
  | .inx => .implied
  | .iny => .implied
  | .dex => .implied
  | .dey => .implied
  | .beq r => .relative r
  | .bne r => .relative r
  | .bcc r => .relative r
  | .bcs r => .relative r
  | .bmi r => .relative r
  | .bpl r => .relative r
  | .bvc r => .relative r
  | .bvs r => .relative r
  | .jmpAbs a => .memory (.absolute a)
  | .jmpInd p => .memory (.indirect p)
  | .jsrAbs a => .memory (.absolute a)
  | .rts => .implied
  | .pha => .implied
  | .pla => .implied
  | .php => .implied
  | .plp => .implied
  | .rti => .implied
  | .brk => .implied
  | .clc => .implied
  | .sec => .implied
  | .cli => .implied
  | .sei => .implied
  | .clv => .implied
  | .cld => .implied
  | .sed => .implied
  | .nop => .implied

end Sys2Proof
end

