-- ==== Sys2Proof/Machine/Operands.lean ====
section
/-! DEFINITION. The sub-block `addressing_mode_resolver` (R70 to R86). The operand bytes are read by the fetch
(`Machine/Fetch.lean`), which leaves PC at the byte after the instruction; what is left to resolve is the effective
address, the branch target and the page-cross report, in that state. -/

namespace Sys2Proof.Machine

/-- An address in zero page (R40). -/
def zeroPageAddr (z : Byte) : Word := mkWord 0x00 z

/-- The zero-page pointer at `z`, its high byte at `z + 1` modulo 256 (R81, R82). -/
def State.zeroPagePointer (s : State) (z : Byte) : Word :=
  mkWord (s.read (zeroPageAddr (z + 1))) (s.read (zeroPageAddr z))

/-- The word Indirect reads: its high byte comes from the same page as its low byte (R80). -/
def State.samePagePointer (s : State) (p : Word) : Word :=
  mkWord (s.read (mkWord (hiByte p) (loByte p + 1))) (s.read p)

/-- The effective address of each mode (R74 to R82). -/
def State.effectiveAddress (s : State) : MemOperand → Word
  | .zeroPage z => zeroPageAddr z
  | .zeroPageX z => zeroPageAddr (z + s.x)
  | .zeroPageY z => zeroPageAddr (z + s.y)
  | .absolute a => a
  | .absoluteX a => a + zext16 s.x
  | .absoluteY a => a + zext16 s.y
  | .indirect p => s.samePagePointer p
  | .indirectX z => s.zeroPagePointer (z + s.x)
  | .indirectY z => s.zeroPagePointer z + zext16 s.y

/-- The target of a branch: PC after the operand plus the signed offset, modulo 65536 (R83). -/
def State.relativeTarget (s : State) (r : Int) : Word := s.pc + BitVec.ofInt 16 r

/-- What `Resolve` hands to the instruction (R70). -/
inductive Resolved where
  | none
  | acc
  | imm (v : Byte)
  | addr (a : Word)
  | rel (t : Word)
  deriving DecidableEq, Repr

/-- Two addresses lie in different pages. -/
def pagesDiffer (a b : Word) : Bool := hiByte a != hiByte b

/-- The page-cross report of a memory mode: the effective address lies in another page than the base the index was
added to. Only AbsoluteX, AbsoluteY and IndirectY can report it (R84). -/
def State.memoryCrossed (s : State) : MemOperand → Bool
  | .absoluteX a => pagesDiffer (s.effectiveAddress (.absoluteX a)) a
  | .absoluteY a => pagesDiffer (s.effectiveAddress (.absoluteY a)) a
  | .indirectY z => pagesDiffer (s.effectiveAddress (.indirectY z)) (s.zeroPagePointer z)
  | .zeroPage _ | .zeroPageX _ | .zeroPageY _ | .absolute _ | .indirect _ | .indirectX _ => false

/-- `Resolve(mode)`: the operand and the page-cross report (R70 to R84). -/
def State.resolve (s : State) : Operand → Resolved × Bool
  | .implied => (.none, false)
  | .accumulator => (.acc, false)
  | .immediate v => (.imm v, false)
  | .memory m => (.addr (s.effectiveAddress m), s.memoryCrossed m)
  | .relative r => (.rel (s.relativeTarget r), pagesDiffer (s.relativeTarget r) s.pc)

/-- `LoadOperand(op)` (R86), for the kinds the rule gives a value to. -/
def State.loadOperand (s : State) : Resolved → Option Byte
  | .imm v => some v
  | .acc => some s.a
  | .addr a => some (s.read a)
  | .none | .rel _ => Option.none

/-- The byte at the effective address of a memory operand: one read (R86, R49). -/
def State.loadFrom (s : State) (m : MemOperand) : Byte := s.read (s.effectiveAddress m)

/-- A store to the effective address of a memory operand: one write (R86, R49). -/
def State.storeTo (s : State) (m : MemOperand) (v : Byte) : State := s.write (s.effectiveAddress m) v

/-- The read-modify-write protocol on the accumulator (R144). -/
def State.modifyAcc (s : State) (f : Byte → Flags → Byte × Flags) : State :=
  { s with a := (f s.a s.flags).1, flags := (f s.a s.flags).2 }

/-- The read-modify-write protocol on memory (R144): one read and one write of the effective address. -/
def State.modifyMem (s : State) (f : Byte → Flags → Byte × Flags) (m : MemOperand) : State :=
  { s.storeTo m (f (s.loadFrom m) s.flags).1 with flags := (f (s.loadFrom m) s.flags).2 }

end Sys2Proof.Machine
end

