-- ==== Sys2Proof/Machine/ArithmeticLogic.lean ====
section
/-! DEFINITION. The meanings of the arithmetic, logic, compare and bit-test instructions (R120 to R131). -/

namespace Sys2Proof.Machine

/-- ADC of an operand value (R120). -/
def State.adc (s : State) (m : Byte) : State :=
  { s with a := (addWithCarry s.a m s.flags).1, flags := (addWithCarry s.a m s.flags).2 }

/-- SBC of an operand value (R121). -/
def State.sbc (s : State) (m : Byte) : State :=
  { s with a := (subWithBorrow s.a m s.flags).1, flags := (subWithBorrow s.a m s.flags).2 }

/-- A compare of a register's value with an operand value: only flags are written (R127 to R129). -/
def State.compare (s : State) (r m : Byte) : State := { s with flags := compareFlags r m s.flags }

/-- BIT of an operand value: only flags are written (R130). -/
def State.bitTest (s : State) (m : Byte) : State := { s with flags := bitTestFlags s.a m s.flags }

/-- ADC Immediate (R120, R73). -/
def execAdcImm (v : Byte) (s : State) : Result := .next (s.adc v)

/-- ADC ZeroPage (R120, R74). -/
def execAdcZp (z : Byte) (s : State) : Result := .next (s.adc (s.loadFrom (.zeroPage z)))

/-- ADC ZeroPageX (R120, R75). -/
def execAdcZpX (z : Byte) (s : State) : Result := .next (s.adc (s.loadFrom (.zeroPageX z)))

/-- ADC Absolute (R120, R77). -/
def execAdcAbs (a : Word) (s : State) : Result := .next (s.adc (s.loadFrom (.absolute a)))

/-- ADC AbsoluteX (R120, R78). -/
def execAdcAbsX (a : Word) (s : State) : Result := .next (s.adc (s.loadFrom (.absoluteX a)))

/-- ADC AbsoluteY (R120, R79). -/
def execAdcAbsY (a : Word) (s : State) : Result := .next (s.adc (s.loadFrom (.absoluteY a)))

/-- ADC IndirectX (R120, R81). -/
def execAdcIndX (z : Byte) (s : State) : Result := .next (s.adc (s.loadFrom (.indirectX z)))

/-- ADC IndirectY (R120, R82). -/
def execAdcIndY (z : Byte) (s : State) : Result := .next (s.adc (s.loadFrom (.indirectY z)))

/-- SBC Immediate (R121, R73). -/
def execSbcImm (v : Byte) (s : State) : Result := .next (s.sbc v)

/-- SBC ZeroPage (R121, R74). -/
def execSbcZp (z : Byte) (s : State) : Result := .next (s.sbc (s.loadFrom (.zeroPage z)))

/-- SBC ZeroPageX (R121, R75). -/
def execSbcZpX (z : Byte) (s : State) : Result := .next (s.sbc (s.loadFrom (.zeroPageX z)))

/-- SBC Absolute (R121, R77). -/
def execSbcAbs (a : Word) (s : State) : Result := .next (s.sbc (s.loadFrom (.absolute a)))

/-- SBC AbsoluteX (R121, R78). -/
def execSbcAbsX (a : Word) (s : State) : Result := .next (s.sbc (s.loadFrom (.absoluteX a)))

/-- SBC AbsoluteY (R121, R79). -/
def execSbcAbsY (a : Word) (s : State) : Result := .next (s.sbc (s.loadFrom (.absoluteY a)))

/-- SBC IndirectX (R121, R81). -/
def execSbcIndX (z : Byte) (s : State) : Result := .next (s.sbc (s.loadFrom (.indirectX z)))

/-- SBC IndirectY (R121, R82). -/
def execSbcIndY (z : Byte) (s : State) : Result := .next (s.sbc (s.loadFrom (.indirectY z)))

/-- AND Immediate (R124, R73). -/
def execAndImm (v : Byte) (s : State) : Result := .next (s.loadA (s.a &&& v))

/-- AND ZeroPage (R124, R74). -/
def execAndZp (z : Byte) (s : State) : Result := .next (s.loadA (s.a &&& s.loadFrom (.zeroPage z)))

/-- AND ZeroPageX (R124, R75). -/
def execAndZpX (z : Byte) (s : State) : Result := .next (s.loadA (s.a &&& s.loadFrom (.zeroPageX z)))

/-- AND Absolute (R124, R77). -/
def execAndAbs (a : Word) (s : State) : Result := .next (s.loadA (s.a &&& s.loadFrom (.absolute a)))

/-- AND AbsoluteX (R124, R78). -/
def execAndAbsX (a : Word) (s : State) : Result := .next (s.loadA (s.a &&& s.loadFrom (.absoluteX a)))

/-- AND AbsoluteY (R124, R79). -/
def execAndAbsY (a : Word) (s : State) : Result := .next (s.loadA (s.a &&& s.loadFrom (.absoluteY a)))

/-- AND IndirectX (R124, R81). -/
def execAndIndX (z : Byte) (s : State) : Result := .next (s.loadA (s.a &&& s.loadFrom (.indirectX z)))

/-- AND IndirectY (R124, R82). -/
def execAndIndY (z : Byte) (s : State) : Result := .next (s.loadA (s.a &&& s.loadFrom (.indirectY z)))

/-- ORA Immediate (R125, R73). -/
def execOraImm (v : Byte) (s : State) : Result := .next (s.loadA (s.a ||| v))

/-- ORA ZeroPage (R125, R74). -/
def execOraZp (z : Byte) (s : State) : Result := .next (s.loadA (s.a ||| s.loadFrom (.zeroPage z)))

/-- ORA ZeroPageX (R125, R75). -/
def execOraZpX (z : Byte) (s : State) : Result := .next (s.loadA (s.a ||| s.loadFrom (.zeroPageX z)))

/-- ORA Absolute (R125, R77). -/
def execOraAbs (a : Word) (s : State) : Result := .next (s.loadA (s.a ||| s.loadFrom (.absolute a)))

/-- ORA AbsoluteX (R125, R78). -/
def execOraAbsX (a : Word) (s : State) : Result := .next (s.loadA (s.a ||| s.loadFrom (.absoluteX a)))

/-- ORA AbsoluteY (R125, R79). -/
def execOraAbsY (a : Word) (s : State) : Result := .next (s.loadA (s.a ||| s.loadFrom (.absoluteY a)))

/-- ORA IndirectX (R125, R81). -/
def execOraIndX (z : Byte) (s : State) : Result := .next (s.loadA (s.a ||| s.loadFrom (.indirectX z)))

/-- ORA IndirectY (R125, R82). -/
def execOraIndY (z : Byte) (s : State) : Result := .next (s.loadA (s.a ||| s.loadFrom (.indirectY z)))

/-- EOR Immediate (R126, R73). -/
def execEorImm (v : Byte) (s : State) : Result := .next (s.loadA (s.a ^^^ v))

/-- EOR ZeroPage (R126, R74). -/
def execEorZp (z : Byte) (s : State) : Result := .next (s.loadA (s.a ^^^ s.loadFrom (.zeroPage z)))

/-- EOR ZeroPageX (R126, R75). -/
def execEorZpX (z : Byte) (s : State) : Result := .next (s.loadA (s.a ^^^ s.loadFrom (.zeroPageX z)))

/-- EOR Absolute (R126, R77). -/
def execEorAbs (a : Word) (s : State) : Result := .next (s.loadA (s.a ^^^ s.loadFrom (.absolute a)))

/-- EOR AbsoluteX (R126, R78). -/
def execEorAbsX (a : Word) (s : State) : Result := .next (s.loadA (s.a ^^^ s.loadFrom (.absoluteX a)))

/-- EOR AbsoluteY (R126, R79). -/
def execEorAbsY (a : Word) (s : State) : Result := .next (s.loadA (s.a ^^^ s.loadFrom (.absoluteY a)))

/-- EOR IndirectX (R126, R81). -/
def execEorIndX (z : Byte) (s : State) : Result := .next (s.loadA (s.a ^^^ s.loadFrom (.indirectX z)))

/-- EOR IndirectY (R126, R82). -/
def execEorIndY (z : Byte) (s : State) : Result := .next (s.loadA (s.a ^^^ s.loadFrom (.indirectY z)))

/-- CMP Immediate (R127, R73). -/
def execCmpImm (v : Byte) (s : State) : Result := .next (s.compare s.a v)

/-- CMP ZeroPage (R127, R74). -/
def execCmpZp (z : Byte) (s : State) : Result := .next (s.compare s.a (s.loadFrom (.zeroPage z)))

/-- CMP ZeroPageX (R127, R75). -/
def execCmpZpX (z : Byte) (s : State) : Result := .next (s.compare s.a (s.loadFrom (.zeroPageX z)))

/-- CMP Absolute (R127, R77). -/
def execCmpAbs (a : Word) (s : State) : Result := .next (s.compare s.a (s.loadFrom (.absolute a)))

/-- CMP AbsoluteX (R127, R78). -/
def execCmpAbsX (a : Word) (s : State) : Result := .next (s.compare s.a (s.loadFrom (.absoluteX a)))

/-- CMP AbsoluteY (R127, R79). -/
def execCmpAbsY (a : Word) (s : State) : Result := .next (s.compare s.a (s.loadFrom (.absoluteY a)))

/-- CMP IndirectX (R127, R81). -/
def execCmpIndX (z : Byte) (s : State) : Result := .next (s.compare s.a (s.loadFrom (.indirectX z)))

/-- CMP IndirectY (R127, R82). -/
def execCmpIndY (z : Byte) (s : State) : Result := .next (s.compare s.a (s.loadFrom (.indirectY z)))

/-- CPX Immediate (R128, R73). -/
def execCpxImm (v : Byte) (s : State) : Result := .next (s.compare s.x v)

/-- CPX ZeroPage (R128, R74). -/
def execCpxZp (z : Byte) (s : State) : Result := .next (s.compare s.x (s.loadFrom (.zeroPage z)))

/-- CPX Absolute (R128, R77). -/
def execCpxAbs (a : Word) (s : State) : Result := .next (s.compare s.x (s.loadFrom (.absolute a)))

/-- CPY Immediate (R129, R73). -/
def execCpyImm (v : Byte) (s : State) : Result := .next (s.compare s.y v)

/-- CPY ZeroPage (R129, R74). -/
def execCpyZp (z : Byte) (s : State) : Result := .next (s.compare s.y (s.loadFrom (.zeroPage z)))

/-- CPY Absolute (R129, R77). -/
def execCpyAbs (a : Word) (s : State) : Result := .next (s.compare s.y (s.loadFrom (.absolute a)))

/-- BIT ZeroPage (R130, R74). -/
def execBitZp (z : Byte) (s : State) : Result := .next (s.bitTest (s.loadFrom (.zeroPage z)))

/-- BIT Absolute (R130, R77). -/
def execBitAbs (a : Word) (s : State) : Result := .next (s.bitTest (s.loadFrom (.absolute a)))

end Sys2Proof.Machine
end

