-- ==== Sys2Proof/Machine/BranchJump.lean ====
section
/-! DEFINITION. The meanings of the branch, jump and subroutine instructions (R160 to R171).
A meaning starts with PC at the byte after the instruction (R14). -/

namespace Sys2Proof.Machine

/-- `Branch(cond)` (R160): PC takes the target if the condition holds, else it stays after the branch. -/
def State.branch (s : State) (cond : Bool) (r : Int) : State :=
  if cond then { s with pc := s.relativeTarget r } else s

/-- BEQ Relative (R161, R83). -/
def execBeq (r : Int) (s : State) : Result := .next (s.branch s.flags.z r)

/-- BNE Relative (R162, R83). -/
def execBne (r : Int) (s : State) : Result := .next (s.branch (!s.flags.z) r)

/-- BCC Relative (R163, R83). -/
def execBcc (r : Int) (s : State) : Result := .next (s.branch (!s.flags.c) r)

/-- BCS Relative (R164, R83). -/
def execBcs (r : Int) (s : State) : Result := .next (s.branch s.flags.c r)

/-- BMI Relative (R165, R83). -/
def execBmi (r : Int) (s : State) : Result := .next (s.branch s.flags.n r)

/-- BPL Relative (R166, R83). -/
def execBpl (r : Int) (s : State) : Result := .next (s.branch (!s.flags.n) r)

/-- BVC Relative (R167, R83). -/
def execBvc (r : Int) (s : State) : Result := .next (s.branch (!s.flags.v) r)

/-- BVS Relative (R168, R83). -/
def execBvs (r : Int) (s : State) : Result := .next (s.branch s.flags.v r)

/-- JMP Absolute (R169, R77). -/
def execJmpAbs (a : Word) (s : State) : Result := .next { s with pc := s.effectiveAddress (.absolute a) }

/-- JMP Indirect (R169, R80). -/
def execJmpInd (p : Word) (s : State) : Result := .next { s with pc := s.effectiveAddress (.indirect p) }

/-- JSR Absolute (R170, R77): push PC after the operand minus 1, then jump. -/
def execJsrAbs (a : Word) (s : State) : Result :=
  .next { s.pushWord (s.pc - 1) with pc := s.effectiveAddress (.absolute a) }

/-- RTS (R171): PC takes the popped word plus 1. -/
def execRts (s : State) : Result := .next { s.popWord with pc := s.topWord + 1 }

end Sys2Proof.Machine
end

