-- ==== Sys2Proof/Machine/LoadStoreTransfer.lean ====
section
/-! DEFINITION. The meanings of the load, store and transfer instructions (R100 to R112). -/

namespace Sys2Proof.Machine

/-- LDA Immediate (R101, R73). -/
def execLdaImm (v : Byte) (s : State) : Result := .next (s.loadA v)

/-- LDA ZeroPage (R101, R74). -/
def execLdaZp (z : Byte) (s : State) : Result := .next (s.loadA (s.loadFrom (.zeroPage z)))

/-- LDA ZeroPageX (R101, R75). -/
def execLdaZpX (z : Byte) (s : State) : Result := .next (s.loadA (s.loadFrom (.zeroPageX z)))

/-- LDA Absolute (R101, R77). -/
def execLdaAbs (a : Word) (s : State) : Result := .next (s.loadA (s.loadFrom (.absolute a)))

/-- LDA AbsoluteX (R101, R78). -/
def execLdaAbsX (a : Word) (s : State) : Result := .next (s.loadA (s.loadFrom (.absoluteX a)))

/-- LDA AbsoluteY (R101, R79). -/
def execLdaAbsY (a : Word) (s : State) : Result := .next (s.loadA (s.loadFrom (.absoluteY a)))

/-- LDA IndirectX (R101, R81). -/
def execLdaIndX (z : Byte) (s : State) : Result := .next (s.loadA (s.loadFrom (.indirectX z)))

/-- LDA IndirectY (R101, R82). -/
def execLdaIndY (z : Byte) (s : State) : Result := .next (s.loadA (s.loadFrom (.indirectY z)))

/-- LDX Immediate (R102, R73). -/
def execLdxImm (v : Byte) (s : State) : Result := .next (s.loadX v)

/-- LDX ZeroPage (R102, R74). -/
def execLdxZp (z : Byte) (s : State) : Result := .next (s.loadX (s.loadFrom (.zeroPage z)))

/-- LDX ZeroPageY (R102, R76). -/
def execLdxZpY (z : Byte) (s : State) : Result := .next (s.loadX (s.loadFrom (.zeroPageY z)))

/-- LDX Absolute (R102, R77). -/
def execLdxAbs (a : Word) (s : State) : Result := .next (s.loadX (s.loadFrom (.absolute a)))

/-- LDX AbsoluteY (R102, R79). -/
def execLdxAbsY (a : Word) (s : State) : Result := .next (s.loadX (s.loadFrom (.absoluteY a)))

/-- LDY Immediate (R103, R73). -/
def execLdyImm (v : Byte) (s : State) : Result := .next (s.loadY v)

/-- LDY ZeroPage (R103, R74). -/
def execLdyZp (z : Byte) (s : State) : Result := .next (s.loadY (s.loadFrom (.zeroPage z)))

/-- LDY ZeroPageX (R103, R75). -/
def execLdyZpX (z : Byte) (s : State) : Result := .next (s.loadY (s.loadFrom (.zeroPageX z)))

/-- LDY Absolute (R103, R77). -/
def execLdyAbs (a : Word) (s : State) : Result := .next (s.loadY (s.loadFrom (.absolute a)))

/-- LDY AbsoluteX (R103, R78). -/
def execLdyAbsX (a : Word) (s : State) : Result := .next (s.loadY (s.loadFrom (.absoluteX a)))

/-- STA ZeroPage (R104, R74). -/
def execStaZp (z : Byte) (s : State) : Result := .next (s.storeTo (.zeroPage z) s.a)

/-- STA ZeroPageX (R104, R75). -/
def execStaZpX (z : Byte) (s : State) : Result := .next (s.storeTo (.zeroPageX z) s.a)

/-- STA Absolute (R104, R77). -/
def execStaAbs (a : Word) (s : State) : Result := .next (s.storeTo (.absolute a) s.a)

/-- STA AbsoluteX (R104, R78). -/
def execStaAbsX (a : Word) (s : State) : Result := .next (s.storeTo (.absoluteX a) s.a)

/-- STA AbsoluteY (R104, R79). -/
def execStaAbsY (a : Word) (s : State) : Result := .next (s.storeTo (.absoluteY a) s.a)

/-- STA IndirectX (R104, R81). -/
def execStaIndX (z : Byte) (s : State) : Result := .next (s.storeTo (.indirectX z) s.a)

/-- STA IndirectY (R104, R82). -/
def execStaIndY (z : Byte) (s : State) : Result := .next (s.storeTo (.indirectY z) s.a)

/-- STX ZeroPage (R105, R74). -/
def execStxZp (z : Byte) (s : State) : Result := .next (s.storeTo (.zeroPage z) s.x)

/-- STX ZeroPageY (R105, R76). -/
def execStxZpY (z : Byte) (s : State) : Result := .next (s.storeTo (.zeroPageY z) s.x)

/-- STX Absolute (R105, R77). -/
def execStxAbs (a : Word) (s : State) : Result := .next (s.storeTo (.absolute a) s.x)

/-- STY ZeroPage (R106, R74). -/
def execStyZp (z : Byte) (s : State) : Result := .next (s.storeTo (.zeroPage z) s.y)

/-- STY ZeroPageX (R106, R75). -/
def execStyZpX (z : Byte) (s : State) : Result := .next (s.storeTo (.zeroPageX z) s.y)

/-- STY Absolute (R106, R77). -/
def execStyAbs (a : Word) (s : State) : Result := .next (s.storeTo (.absolute a) s.y)

/-- TAX Implied (R107, R71). -/
def execTax (s : State) : Result := .next (s.loadX s.a)

/-- TXA Implied (R108, R71). -/
def execTxa (s : State) : Result := .next (s.loadA s.x)

/-- TAY Implied (R109, R71). -/
def execTay (s : State) : Result := .next (s.loadY s.a)

/-- TYA Implied (R110, R71). -/
def execTya (s : State) : Result := .next (s.loadA s.y)

/-- TSX Implied (R111, R71). -/
def execTsx (s : State) : Result := .next (s.loadX s.sp)

/-- TXS (R112): SP takes X, and Z and N are set from it under TXS_UPDATES_NZ (log 7). -/
def execTxs (s : State) : Result :=
  .next { s with sp := s.x, flags := if Config.txsUpdatesNZ then s.flags.setZN s.x else s.flags }

end Sys2Proof.Machine
end

