-- ==== Sys2Proof/Machine/ShiftIncDec.lean ====
section
/-! DEFINITION. The meanings of the shift, rotate, increment and decrement instructions (R140 to R150). -/

namespace Sys2Proof.Machine

/-- ASL Accumulator (R140, R72). -/
def execAslAcc (s : State) : Result := .next (s.modifyAcc shiftLeft)

/-- ASL ZeroPage (R140, R74). -/
def execAslZp (z : Byte) (s : State) : Result := .next (s.modifyMem shiftLeft (.zeroPage z))

/-- ASL ZeroPageX (R140, R75). -/
def execAslZpX (z : Byte) (s : State) : Result := .next (s.modifyMem shiftLeft (.zeroPageX z))

/-- ASL Absolute (R140, R77). -/
def execAslAbs (a : Word) (s : State) : Result := .next (s.modifyMem shiftLeft (.absolute a))

/-- ASL AbsoluteX (R140, R78). -/
def execAslAbsX (a : Word) (s : State) : Result := .next (s.modifyMem shiftLeft (.absoluteX a))

/-- LSR Accumulator (R141, R72). -/
def execLsrAcc (s : State) : Result := .next (s.modifyAcc shiftRight)

/-- LSR ZeroPage (R141, R74). -/
def execLsrZp (z : Byte) (s : State) : Result := .next (s.modifyMem shiftRight (.zeroPage z))

/-- LSR ZeroPageX (R141, R75). -/
def execLsrZpX (z : Byte) (s : State) : Result := .next (s.modifyMem shiftRight (.zeroPageX z))

/-- LSR Absolute (R141, R77). -/
def execLsrAbs (a : Word) (s : State) : Result := .next (s.modifyMem shiftRight (.absolute a))

/-- LSR AbsoluteX (R141, R78). -/
def execLsrAbsX (a : Word) (s : State) : Result := .next (s.modifyMem shiftRight (.absoluteX a))

/-- ROL Accumulator (R142, R72). -/
def execRolAcc (s : State) : Result := .next (s.modifyAcc rotateLeft)

/-- ROL ZeroPage (R142, R74). -/
def execRolZp (z : Byte) (s : State) : Result := .next (s.modifyMem rotateLeft (.zeroPage z))

/-- ROL ZeroPageX (R142, R75). -/
def execRolZpX (z : Byte) (s : State) : Result := .next (s.modifyMem rotateLeft (.zeroPageX z))

/-- ROL Absolute (R142, R77). -/
def execRolAbs (a : Word) (s : State) : Result := .next (s.modifyMem rotateLeft (.absolute a))

/-- ROL AbsoluteX (R142, R78). -/
def execRolAbsX (a : Word) (s : State) : Result := .next (s.modifyMem rotateLeft (.absoluteX a))

/-- ROR Accumulator (R143, R72). -/
def execRorAcc (s : State) : Result := .next (s.modifyAcc rotateRight)

/-- ROR ZeroPage (R143, R74). -/
def execRorZp (z : Byte) (s : State) : Result := .next (s.modifyMem rotateRight (.zeroPage z))

/-- ROR ZeroPageX (R143, R75). -/
def execRorZpX (z : Byte) (s : State) : Result := .next (s.modifyMem rotateRight (.zeroPageX z))

/-- ROR Absolute (R143, R77). -/
def execRorAbs (a : Word) (s : State) : Result := .next (s.modifyMem rotateRight (.absolute a))

/-- ROR AbsoluteX (R143, R78). -/
def execRorAbsX (a : Word) (s : State) : Result := .next (s.modifyMem rotateRight (.absoluteX a))

/-- INC ZeroPage (R145, R74). -/
def execIncZp (z : Byte) (s : State) : Result := .next (s.modifyMem increment (.zeroPage z))

/-- INC ZeroPageX (R145, R75). -/
def execIncZpX (z : Byte) (s : State) : Result := .next (s.modifyMem increment (.zeroPageX z))

/-- INC Absolute (R145, R77). -/
def execIncAbs (a : Word) (s : State) : Result := .next (s.modifyMem increment (.absolute a))

/-- INC AbsoluteX (R145, R78). -/
def execIncAbsX (a : Word) (s : State) : Result := .next (s.modifyMem increment (.absoluteX a))

/-- DEC ZeroPage (R146, R74). -/
def execDecZp (z : Byte) (s : State) : Result := .next (s.modifyMem decrement (.zeroPage z))

/-- DEC ZeroPageX (R146, R75). -/
def execDecZpX (z : Byte) (s : State) : Result := .next (s.modifyMem decrement (.zeroPageX z))

/-- DEC Absolute (R146, R77). -/
def execDecAbs (a : Word) (s : State) : Result := .next (s.modifyMem decrement (.absolute a))

/-- DEC AbsoluteX (R146, R78). -/
def execDecAbsX (a : Word) (s : State) : Result := .next (s.modifyMem decrement (.absoluteX a))

/-- INX Implied (R147, R71). -/
def execInx (s : State) : Result :=
  .next { s with x := (increment s.x s.flags).1, flags := (increment s.x s.flags).2 }

/-- INY Implied (R148, R71). -/
def execIny (s : State) : Result :=
  .next { s with y := (increment s.y s.flags).1, flags := (increment s.y s.flags).2 }

/-- DEX Implied (R149, R71). -/
def execDex (s : State) : Result :=
  .next { s with x := (decrement s.x s.flags).1, flags := (decrement s.x s.flags).2 }

/-- DEY Implied (R150, R71). -/
def execDey (s : State) : Result :=
  .next { s with y := (decrement s.y s.flags).1, flags := (decrement s.y s.flags).2 }

end Sys2Proof.Machine
end

