-- ==== Sys2Proof/Machine/StackFlagSystem.lean ====
section
/-! DEFINITION. The meanings of the stack, flag and system instructions (R180 to R193). -/

namespace Sys2Proof.Machine

/-- PHA Implied (R180, R71). -/
def execPha (s : State) : Result := .next (s.push s.a)

/-- PLA Implied (R181, R71). -/
def execPla (s : State) : Result := .next (s.pop.loadA s.top)

/-- PHP (R182): bits 5 and 4 of the pushed byte are 1. -/
def execPhp (s : State) : Result := .next (s.push (s.flags.toByte true))

/-- PLP (R183): bits 5 and 4 of the pulled byte are ignored. -/
def execPlp (s : State) : Result := .next { s.pop with flags := s.flags.fromByte s.top }

/-- RTI Implied (R184, R71). -/
def execRti (s : State) : Result := .next (s.interruptReturn)

/-- BRK (R185): PC advances over the padding byte, then the entry through the IRQ vector with bit 4 set. -/
def execBrk (s : State) : Result := .next (State.interruptEntry { s with pc := s.pc + 1 } irqVector true)

/-- CLC (R186): one flag is written and nothing else. -/
def execClc (s : State) : Result := .next { s with flags := { s.flags with c := false } }

/-- SEC (R187): one flag is written and nothing else. -/
def execSec (s : State) : Result := .next { s with flags := { s.flags with c := true } }

/-- CLI (R188): one flag is written and nothing else. -/
def execCli (s : State) : Result := .next { s with flags := { s.flags with i := false } }

/-- SEI (R189): one flag is written and nothing else. -/
def execSei (s : State) : Result := .next { s with flags := { s.flags with i := true } }

/-- CLV (R190): one flag is written and nothing else. -/
def execClv (s : State) : Result := .next { s with flags := { s.flags with v := false } }

/-- CLD (R191): one flag is written and nothing else. -/
def execCld (s : State) : Result := .next { s with flags := { s.flags with d := false } }

/-- SED (R192): one flag is written and nothing else. -/
def execSed (s : State) : Result := .next { s with flags := { s.flags with d := true } }

/-- NOP (R193): nothing but the PC advance of the fetch. -/
def execNop (s : State) : Result := .next s

end Sys2Proof.Machine
end

