-- ==== Sys2Proof/WellFormed.lean ====
section
/-! DEFINITION. Which instruction terms have an encoding. Every operand field but one is a byte or a word of its own
type, so every value of it can be encoded; the offset of a branch is a number and must fit the signed byte it is
encoded in: -128 to +127 (R52). A mnemonic and mode pair outside the table (R85) has no constructor. -/

namespace Sys2Proof

/-- The operand field fits its bytes (R52). -/
def Operand.wellFormed : Operand → Bool
  | .relative r => decide (-128 ≤ r) && decide (r ≤ 127)
  | .implied | .accumulator | .immediate _ | .memory _ => true

/-- The instruction has an encoding (R52). -/
def Instr.wellFormed (i : Instr) : Bool := i.operand.wellFormed

end Sys2Proof
end

