-- ==== Sys2Proof/Decode.lean ====
section
/-! DEFINITION. Decoding and encoding. Decode is a lookup of the whole opcode byte in one table (R53) whose rows are
the 151 rows of R59; the entry fixes how many operand bytes follow and which instruction they make (R50 to R52, R56).
Every other opcode is rejected by name (R55). The encoder follows, from the same tables. -/

namespace Sys2Proof

/-- How an entry turns its operand bytes into an instruction: no byte, one byte as it stands, one signed byte, or two
bytes low byte first (R51, R52). -/
inductive OperandField where
  | none (i : Instr)
  | byte (mk : Byte → Instr)
  | rel (mk : Int → Instr)
  | word (mk : Word → Instr)

/-- One entry of the opcode table (R53): the opcode, the instruction with its mode, the base cycle count and the
extra-cycle-on-page-cross flag. -/
structure Entry where
  opcode : Byte
  field : OperandField
  base : Nat
  pageExtra : Bool

/-- The entries of the loads, stores and transfers (R101 to R112). -/
def loadStoreEntries : List Entry :=
   [⟨0xA9, .byte .ldaImm, 2, false⟩, ⟨0xA5, .byte .ldaZp, 3, false⟩, ⟨0xB5, .byte .ldaZpX, 4, false⟩,
     ⟨0xAD, .word .ldaAbs, 4, false⟩, ⟨0xBD, .word .ldaAbsX, 4, true⟩, ⟨0xB9, .word .ldaAbsY, 4, true⟩,
     ⟨0xA1, .byte .ldaIndX, 6, false⟩, ⟨0xB1, .byte .ldaIndY, 5, true⟩] ++
   [⟨0xA2, .byte .ldxImm, 2, false⟩, ⟨0xA6, .byte .ldxZp, 3, false⟩, ⟨0xB6, .byte .ldxZpY, 4, false⟩,
     ⟨0xAE, .word .ldxAbs, 4, false⟩, ⟨0xBE, .word .ldxAbsY, 4, true⟩] ++
   [⟨0xA0, .byte .ldyImm, 2, false⟩, ⟨0xA4, .byte .ldyZp, 3, false⟩, ⟨0xB4, .byte .ldyZpX, 4, false⟩,
     ⟨0xAC, .word .ldyAbs, 4, false⟩, ⟨0xBC, .word .ldyAbsX, 4, true⟩] ++
   [⟨0x85, .byte .staZp, 3, false⟩, ⟨0x95, .byte .staZpX, 4, false⟩, ⟨0x8D, .word .staAbs, 4, false⟩,
     ⟨0x9D, .word .staAbsX, 5, false⟩, ⟨0x99, .word .staAbsY, 5, false⟩, ⟨0x81, .byte .staIndX, 6, false⟩,
     ⟨0x91, .byte .staIndY, 6, false⟩] ++
   [⟨0x86, .byte .stxZp, 3, false⟩, ⟨0x96, .byte .stxZpY, 4, false⟩, ⟨0x8E, .word .stxAbs, 4, false⟩] ++
   [⟨0x84, .byte .styZp, 3, false⟩, ⟨0x94, .byte .styZpX, 4, false⟩, ⟨0x8C, .word .styAbs, 4, false⟩] ++
   [⟨0xAA, .none .tax, 2, false⟩] ++
   [⟨0x8A, .none .txa, 2, false⟩] ++
   [⟨0xA8, .none .tay, 2, false⟩] ++
   [⟨0x98, .none .tya, 2, false⟩] ++
   [⟨0xBA, .none .tsx, 2, false⟩] ++
   [⟨0x9A, .none .txs, 2, false⟩]

/-- The entries of the arithmetic, logic, compare and bit test (R120 to R130). -/
def arithmeticEntries : List Entry :=
   [⟨0x69, .byte .adcImm, 2, false⟩, ⟨0x65, .byte .adcZp, 3, false⟩, ⟨0x75, .byte .adcZpX, 4, false⟩,
     ⟨0x6D, .word .adcAbs, 4, false⟩, ⟨0x7D, .word .adcAbsX, 4, true⟩, ⟨0x79, .word .adcAbsY, 4, true⟩,
     ⟨0x61, .byte .adcIndX, 6, false⟩, ⟨0x71, .byte .adcIndY, 5, true⟩] ++
   [⟨0xE9, .byte .sbcImm, 2, false⟩, ⟨0xE5, .byte .sbcZp, 3, false⟩, ⟨0xF5, .byte .sbcZpX, 4, false⟩,
     ⟨0xED, .word .sbcAbs, 4, false⟩, ⟨0xFD, .word .sbcAbsX, 4, true⟩, ⟨0xF9, .word .sbcAbsY, 4, true⟩,
     ⟨0xE1, .byte .sbcIndX, 6, false⟩, ⟨0xF1, .byte .sbcIndY, 5, true⟩] ++
   [⟨0x29, .byte .andImm, 2, false⟩, ⟨0x25, .byte .andZp, 3, false⟩, ⟨0x35, .byte .andZpX, 4, false⟩,
     ⟨0x2D, .word .andAbs, 4, false⟩, ⟨0x3D, .word .andAbsX, 4, true⟩, ⟨0x39, .word .andAbsY, 4, true⟩,
     ⟨0x21, .byte .andIndX, 6, false⟩, ⟨0x31, .byte .andIndY, 5, true⟩] ++
   [⟨0x09, .byte .oraImm, 2, false⟩, ⟨0x05, .byte .oraZp, 3, false⟩, ⟨0x15, .byte .oraZpX, 4, false⟩,
     ⟨0x0D, .word .oraAbs, 4, false⟩, ⟨0x1D, .word .oraAbsX, 4, true⟩, ⟨0x19, .word .oraAbsY, 4, true⟩,
     ⟨0x01, .byte .oraIndX, 6, false⟩, ⟨0x11, .byte .oraIndY, 5, true⟩] ++
   [⟨0x49, .byte .eorImm, 2, false⟩, ⟨0x45, .byte .eorZp, 3, false⟩, ⟨0x55, .byte .eorZpX, 4, false⟩,
     ⟨0x4D, .word .eorAbs, 4, false⟩, ⟨0x5D, .word .eorAbsX, 4, true⟩, ⟨0x59, .word .eorAbsY, 4, true⟩,
     ⟨0x41, .byte .eorIndX, 6, false⟩, ⟨0x51, .byte .eorIndY, 5, true⟩] ++
   [⟨0xC9, .byte .cmpImm, 2, false⟩, ⟨0xC5, .byte .cmpZp, 3, false⟩, ⟨0xD5, .byte .cmpZpX, 4, false⟩,
     ⟨0xCD, .word .cmpAbs, 4, false⟩, ⟨0xDD, .word .cmpAbsX, 4, true⟩, ⟨0xD9, .word .cmpAbsY, 4, true⟩,
     ⟨0xC1, .byte .cmpIndX, 6, false⟩, ⟨0xD1, .byte .cmpIndY, 5, true⟩] ++
   [⟨0xE0, .byte .cpxImm, 2, false⟩, ⟨0xE4, .byte .cpxZp, 3, false⟩, ⟨0xEC, .word .cpxAbs, 4, false⟩] ++
   [⟨0xC0, .byte .cpyImm, 2, false⟩, ⟨0xC4, .byte .cpyZp, 3, false⟩, ⟨0xCC, .word .cpyAbs, 4, false⟩] ++
   [⟨0x24, .byte .bitZp, 3, false⟩, ⟨0x2C, .word .bitAbs, 4, false⟩]

/-- The entries of the shifts, rotates, increments and decrements (R140 to R150). -/
def shiftEntries : List Entry :=
   [⟨0x0A, .none .aslAcc, 2, false⟩, ⟨0x06, .byte .aslZp, 5, false⟩, ⟨0x16, .byte .aslZpX, 6, false⟩,
     ⟨0x0E, .word .aslAbs, 6, false⟩, ⟨0x1E, .word .aslAbsX, 7, false⟩] ++
   [⟨0x4A, .none .lsrAcc, 2, false⟩, ⟨0x46, .byte .lsrZp, 5, false⟩, ⟨0x56, .byte .lsrZpX, 6, false⟩,
     ⟨0x4E, .word .lsrAbs, 6, false⟩, ⟨0x5E, .word .lsrAbsX, 7, false⟩] ++
   [⟨0x2A, .none .rolAcc, 2, false⟩, ⟨0x26, .byte .rolZp, 5, false⟩, ⟨0x36, .byte .rolZpX, 6, false⟩,
     ⟨0x2E, .word .rolAbs, 6, false⟩, ⟨0x3E, .word .rolAbsX, 7, false⟩] ++
   [⟨0x6A, .none .rorAcc, 2, false⟩, ⟨0x66, .byte .rorZp, 5, false⟩, ⟨0x76, .byte .rorZpX, 6, false⟩,
     ⟨0x6E, .word .rorAbs, 6, false⟩, ⟨0x7E, .word .rorAbsX, 7, false⟩] ++
   [⟨0xE6, .byte .incZp, 5, false⟩, ⟨0xF6, .byte .incZpX, 6, false⟩, ⟨0xEE, .word .incAbs, 6, false⟩,
     ⟨0xFE, .word .incAbsX, 7, false⟩] ++
   [⟨0xC6, .byte .decZp, 5, false⟩, ⟨0xD6, .byte .decZpX, 6, false⟩, ⟨0xCE, .word .decAbs, 6, false⟩,
     ⟨0xDE, .word .decAbsX, 7, false⟩] ++
   [⟨0xE8, .none .inx, 2, false⟩] ++
   [⟨0xC8, .none .iny, 2, false⟩] ++
   [⟨0xCA, .none .dex, 2, false⟩] ++
   [⟨0x88, .none .dey, 2, false⟩]

/-- The entries of the branches, jumps and subroutines (R161 to R171). -/
def branchEntries : List Entry :=
   [⟨0xF0, .rel .beq, 2, false⟩] ++
   [⟨0xD0, .rel .bne, 2, false⟩] ++
   [⟨0x90, .rel .bcc, 2, false⟩] ++
   [⟨0xB0, .rel .bcs, 2, false⟩] ++
   [⟨0x30, .rel .bmi, 2, false⟩] ++
   [⟨0x10, .rel .bpl, 2, false⟩] ++
   [⟨0x50, .rel .bvc, 2, false⟩] ++
   [⟨0x70, .rel .bvs, 2, false⟩] ++
   [⟨0x4C, .word .jmpAbs, 3, false⟩, ⟨0x6C, .word .jmpInd, 5, false⟩] ++
   [⟨0x20, .word .jsrAbs, 6, false⟩] ++
   [⟨0x60, .none .rts, 6, false⟩]

/-- The entries of the stack, flag and system instructions (R180 to R193). -/
def systemEntries : List Entry :=
   [⟨0x48, .none .pha, 3, false⟩] ++
   [⟨0x68, .none .pla, 4, false⟩] ++
   [⟨0x08, .none .php, 3, false⟩] ++
   [⟨0x28, .none .plp, 4, false⟩] ++
   [⟨0x40, .none .rti, 6, false⟩] ++
   [⟨0x00, .none .brk, 7, false⟩] ++
   [⟨0x18, .none .clc, 2, false⟩] ++
   [⟨0x38, .none .sec, 2, false⟩] ++
   [⟨0x58, .none .cli, 2, false⟩] ++
   [⟨0x78, .none .sei, 2, false⟩] ++
   [⟨0xB8, .none .clv, 2, false⟩] ++
   [⟨0xD8, .none .cld, 2, false⟩] ++
   [⟨0xF8, .none .sed, 2, false⟩] ++
   [⟨0xEA, .none .nop, 2, false⟩]

/-- The opcode table (R53, R54, R59): 151 entries, a constant of the machine. -/
def opcodeTable : List Entry :=
  loadStoreEntries ++ arithmeticEntries ++ shiftEntries ++ branchEntries ++ systemEntries

/-- The lookup of R53: the entry of an opcode, or none for one of the 105 values of R55. -/
def findEntry (op : Byte) : Option Entry := opcodeTable.find? fun e => e.opcode == op

/-- How many operand bytes follow the opcode (R51). -/
def OperandField.length : OperandField → Nat
  | .none _ => 0
  | .byte _ | .rel _ => 1
  | .word _ => 2

/-- The length of the entry's instruction in bytes (R50, R51). -/
def Entry.length (e : Entry) : Nat := 1 + e.field.length

/-- The length of the instruction an opcode begins, found from the opcode alone (R50); an illegal opcode has no
length and only its own byte is consumed (R56). -/
def instrLength (op : Byte) : Nat :=
  match findEntry op with
  | some e => e.length
  | none => 1

/-- What decoding finds at the head of a list of bytes. -/
inductive Decoded where
  /-- An instruction, and the bytes after it. -/
  | ok (i : Instr) (rest : List Byte)
  /-- The first byte is none of the 151 opcodes (R55). -/
  | illegalOpcode (opcode : Byte)
  /-- The list ends inside the instruction. -/
  | truncated
  deriving DecidableEq, Repr

/-- The operand bytes of an entry turned into its operand field (R52); two bytes are little-endian (R34). -/
def OperandField.parse : OperandField → List Byte → Decoded
  | .none i, rest => .ok i rest
  | .byte mk, b :: rest => .ok (mk b) rest
  | .rel mk, b :: rest => .ok (mk b.toInt) rest
  | .word mk, lo :: hi :: rest => .ok (mk (mkWord hi lo)) rest
  | .byte _, [] | .rel _, [] | .word _, [] | .word _, [_] => .truncated

/-- Decode the instruction at the head of a list of bytes (R50 to R56). -/
def decode : List Byte → Decoded
  | [] => .truncated
  | op :: rest =>
    match findEntry op with
    | none => .illegalOpcode op
    | some e => e.field.parse rest

/-- The opcode byte of an instruction (R54, R59). -/
def Instr.opcode : Instr → Byte
  | .ldaImm _ => 0xA9
  | .ldaZp _ => 0xA5
  | .ldaZpX _ => 0xB5
  | .ldaAbs _ => 0xAD
  | .ldaAbsX _ => 0xBD
  | .ldaAbsY _ => 0xB9
  | .ldaIndX _ => 0xA1
  | .ldaIndY _ => 0xB1
  | .ldxImm _ => 0xA2
  | .ldxZp _ => 0xA6
  | .ldxZpY _ => 0xB6
  | .ldxAbs _ => 0xAE
  | .ldxAbsY _ => 0xBE
  | .ldyImm _ => 0xA0
  | .ldyZp _ => 0xA4
  | .ldyZpX _ => 0xB4
  | .ldyAbs _ => 0xAC
  | .ldyAbsX _ => 0xBC
  | .staZp _ => 0x85
  | .staZpX _ => 0x95
  | .staAbs _ => 0x8D
  | .staAbsX _ => 0x9D
  | .staAbsY _ => 0x99
  | .staIndX _ => 0x81
  | .staIndY _ => 0x91
  | .stxZp _ => 0x86
  | .stxZpY _ => 0x96
  | .stxAbs _ => 0x8E
  | .styZp _ => 0x84
  | .styZpX _ => 0x94
  | .styAbs _ => 0x8C
  | .tax => 0xAA
  | .txa => 0x8A
  | .tay => 0xA8
  | .tya => 0x98
  | .tsx => 0xBA
  | .txs => 0x9A
  | .adcImm _ => 0x69
  | .adcZp _ => 0x65
  | .adcZpX _ => 0x75
  | .adcAbs _ => 0x6D
  | .adcAbsX _ => 0x7D
  | .adcAbsY _ => 0x79
  | .adcIndX _ => 0x61
  | .adcIndY _ => 0x71
  | .sbcImm _ => 0xE9
  | .sbcZp _ => 0xE5
  | .sbcZpX _ => 0xF5
  | .sbcAbs _ => 0xED
  | .sbcAbsX _ => 0xFD
  | .sbcAbsY _ => 0xF9
  | .sbcIndX _ => 0xE1
  | .sbcIndY _ => 0xF1
  | .andImm _ => 0x29
  | .andZp _ => 0x25
  | .andZpX _ => 0x35
  | .andAbs _ => 0x2D
  | .andAbsX _ => 0x3D
  | .andAbsY _ => 0x39
  | .andIndX _ => 0x21
  | .andIndY _ => 0x31
  | .oraImm _ => 0x09
  | .oraZp _ => 0x05
  | .oraZpX _ => 0x15
  | .oraAbs _ => 0x0D
  | .oraAbsX _ => 0x1D
  | .oraAbsY _ => 0x19
  | .oraIndX _ => 0x01
  | .oraIndY _ => 0x11
  | .eorImm _ => 0x49
  | .eorZp _ => 0x45
  | .eorZpX _ => 0x55
  | .eorAbs _ => 0x4D
  | .eorAbsX _ => 0x5D
  | .eorAbsY _ => 0x59
  | .eorIndX _ => 0x41
  | .eorIndY _ => 0x51
  | .cmpImm _ => 0xC9
  | .cmpZp _ => 0xC5
  | .cmpZpX _ => 0xD5
  | .cmpAbs _ => 0xCD
  | .cmpAbsX _ => 0xDD
  | .cmpAbsY _ => 0xD9
  | .cmpIndX _ => 0xC1
  | .cmpIndY _ => 0xD1
  | .cpxImm _ => 0xE0
  | .cpxZp _ => 0xE4
  | .cpxAbs _ => 0xEC
  | .cpyImm _ => 0xC0
  | .cpyZp _ => 0xC4
  | .cpyAbs _ => 0xCC
  | .bitZp _ => 0x24
  | .bitAbs _ => 0x2C
  | .aslAcc => 0x0A
  | .aslZp _ => 0x06
  | .aslZpX _ => 0x16
  | .aslAbs _ => 0x0E
  | .aslAbsX _ => 0x1E
  | .lsrAcc => 0x4A
  | .lsrZp _ => 0x46
  | .lsrZpX _ => 0x56
  | .lsrAbs _ => 0x4E
  | .lsrAbsX _ => 0x5E
  | .rolAcc => 0x2A
  | .rolZp _ => 0x26
  | .rolZpX _ => 0x36
  | .rolAbs _ => 0x2E
  | .rolAbsX _ => 0x3E
  | .rorAcc => 0x6A
  | .rorZp _ => 0x66
  | .rorZpX _ => 0x76
  | .rorAbs _ => 0x6E
  | .rorAbsX _ => 0x7E
  | .incZp _ => 0xE6
  | .incZpX _ => 0xF6
  | .incAbs _ => 0xEE
  | .incAbsX _ => 0xFE
  | .decZp _ => 0xC6
  | .decZpX _ => 0xD6
  | .decAbs _ => 0xCE
  | .decAbsX _ => 0xDE
  | .inx => 0xE8
  | .iny => 0xC8
  | .dex => 0xCA
  | .dey => 0x88
  | .beq _ => 0xF0
  | .bne _ => 0xD0
  | .bcc _ => 0x90
  | .bcs _ => 0xB0
  | .bmi _ => 0x30
  | .bpl _ => 0x10
  | .bvc _ => 0x50
  | .bvs _ => 0x70
  | .jmpAbs _ => 0x4C
  | .jmpInd _ => 0x6C
  | .jsrAbs _ => 0x20
  | .rts => 0x60
  | .pha => 0x48
  | .pla => 0x68
  | .php => 0x08
  | .plp => 0x28
  | .rti => 0x40
  | .brk => 0x00
  | .clc => 0x18
  | .sec => 0x38
  | .cli => 0x58
  | .sei => 0x78
  | .clv => 0xB8
  | .cld => 0xD8
  | .sed => 0xF8
  | .nop => 0xEA

/-- The bytes of the operand field in memory order (R51, R34). -/
def Operand.bytes : Operand → List Byte
  | .implied | .accumulator => []
  | .immediate v => [v]
  | .memory (.zeroPage z) | .memory (.zeroPageX z) | .memory (.zeroPageY z) => [z]
  | .memory (.indirectX z) | .memory (.indirectY z) => [z]
  | .memory (.absolute a) | .memory (.absoluteX a) | .memory (.absoluteY a) => [loByte a, hiByte a]
  | .memory (.indirect p) => [loByte p, hiByte p]
  | .relative r => [BitVec.ofInt 8 r]

/-- The bytes of an instruction at ascending addresses (R50). -/
def encode (i : Instr) : List Byte := i.opcode :: i.operand.bytes

/-- The longest instruction, in bytes (R50). -/
def maxLength : Nat := 3

/-- The bytes of a table word: byte k is its bits 8k+7 to 8k, every bit from `nbits` on is 0. -/
def tableWordBytes (nbits w : Nat) : List Byte :=
  (List.range maxLength).map fun k => BitVec.ofNat 8 ((w % 2 ^ nbits) / 2 ^ (8 * k))

/-- The instruction the decoder reads from a word numbered as spec/opcode_table.json numbers it. -/
def decodeTableWord (nbits w : Nat) : Option Instr :=
  match decode (tableWordBytes nbits w) with
  | .ok i _ => some i
  | .illegalOpcode _ | .truncated => none

end Sys2Proof
end

