-- ==== Sys2Proof/Machine/Fetch.lean ====
section
/-! DEFINITION. The fetch of the sub-block `fetch_decode_execute` (R200 (2) and (3), R70): the opcode byte at PC, and
as many operand bytes at ascending addresses modulo 65536 as the opcode asks for (R50, R56). -/

namespace Sys2Proof.Machine

/-- The opcode byte at PC (R200 (2)). -/
def State.opcodeByte (s : State) : Byte := s.read s.pc

/-- The `n` bytes from an address on, at ascending addresses. -/
def State.bytesAt (s : State) (addr : Word) (n : Nat) : List Byte :=
  (List.range n).map fun k => s.read (addr + BitVec.ofNat 16 k)

/-- The bytes of the instruction at PC (R50, R70). An illegal opcode is one byte: no operand byte is read (R202). -/
def State.instrBytes (s : State) : List Byte := s.bytesAt s.pc (instrLength s.opcodeByte)

/-- The instruction at PC. -/
def State.fetch (s : State) : Decoded := decode s.instrBytes

/-- The state in which the instruction's semantics run: PC at the byte after the instruction (R14, R70). -/
def State.fetched (s : State) : State := { s with pc := s.pc + BitVec.ofNat 16 (instrLength s.opcodeByte) }

/-- The interrupt a step services at its start, if any: NMI first, IRQ only when I = 0 (R200 (1), R206). -/
inductive Service where
  | nmi
  | irq
  | none
  deriving DecidableEq, Repr

def State.service (s : State) : Service :=
  if s.nmiPending then .nmi else if s.irqPending && !s.flags.i then .irq else .none

/-- An NMI entry: the latch is cleared and the entry goes through 0xFFFA with bit 4 = 0 (R200, R203). -/
def State.nmiEntry (s : State) : State := State.interruptEntry { s with nmiPending := false } nmiVector false

/-- An IRQ entry: the latch is cleared and the entry goes through 0xFFFE with bit 4 = 0 (R200, R204). -/
def State.irqEntry (s : State) : State := State.interruptEntry { s with irqPending := false } irqVector false

/-- What an `IllegalOpcode` leaves behind: PC past the opcode byte and nothing else changed (R202). -/
def State.afterIllegalOpcode (s : State) : State := { s with pc := s.pc + 1 }

/-- Write bytes at ascending addresses. -/
def State.writeBytes (s : State) (addr : Word) : List Byte → State
  | [] => s
  | b :: rest => State.writeBytes (s.write addr b) (addr + 1) rest

end Sys2Proof.Machine
end

