-- ==== Sys2Proof/Machine/Step.lean ====
section
/-! DEFINITION. One `step()` transaction: one interrupt entry, or one instruction, or the error (R200). -/

namespace Sys2Proof.Machine

/-- `Step()` (R200): check the latches, else fetch, decode and execute.
A decode of the bytes the opcode asks for is never cut short; that answer is the fault of its opcode too. -/
def step (s : State) : Host.Outcome State Fault Refusal :=
  match s.service with
  | .nmi => .next s.nmiEntry
  | .irq => .next s.irqEntry
  | .none =>
    match s.fetch with
    | .ok i _ => exec i s.fetched
    | .illegalOpcode op => .fault (.illegalOpcode op s.pc)
    | .truncated => .fault (.illegalOpcode s.opcodeByte s.pc)

/-- `s` with an instruction placed at PC, its bits numbered as spec/opcode_table.json numbers them, and with no
interrupt that the next step would service instead of fetching (R206; logs 5 and 18). -/
def State.withFetchWord (s : State) (nbits w : Nat) : State :=
  { s.writeBytes s.pc (tableWordBytes nbits w) with
    nmiPending := false, irqPending := s.irqPending && s.flags.i }

end Sys2Proof.Machine
end

