-- ==== Sys2Proof/Machine/Bus.lean ====
section
/-! DEFINITION. The bus accesses of a transaction, in order (R49): what the environment sees on the bus. They are an
output, computed from the state before the step and the state it answers (log 19). -/

namespace Sys2Proof.Machine

/-- One bus transaction with its address and byte (R31). -/
inductive Access where
  | read (addr : Word) (v : Byte)
  | write (addr : Word) (v : Byte)
  deriving DecidableEq, Repr

/-- The read of an address in a state. -/
def State.reads (s : State) (addr : Word) : Access := .read addr (s.read addr)

/-- The write that left an address as it is in a state. -/
def State.wrote (s : State) (addr : Word) : Access := .write addr (s.read addr)

/-- What an instruction does on the bus beyond its own bytes and pointers. -/
inductive BusRole where
  | quiet        -- no access
  | readData     -- one read of the effective address
  | writeData    -- one write of it, no read
  | modifyData   -- one read and then one write of it (R144)
  | pushes (n : Nat)
  | pulls (n : Nat)
  | entry        -- BRK: three pushes and two vector reads

/-- The role of each mnemonic (R100 to R193). -/
def busRole : Mnemonic → BusRole
  | .lda | .ldx | .ldy | .adc | .sbc | .and | .ora | .eor | .cmp | .cpx | .cpy | .bit => .readData
  | .sta | .stx | .sty => .writeData
  | .asl | .lsr | .rol | .ror | .inc | .dec => .modifyData
  | .tax | .txa | .tay | .tya | .tsx | .txs | .inx | .iny | .dex | .dey => .quiet
  | .beq | .bne | .bcc | .bcs | .bmi | .bpl | .bvc | .bvs | .jmp => .quiet
  | .jsr => .pushes 2
  | .pha | .php => .pushes 1
  | .rts => .pulls 2
  | .pla | .plp => .pulls 1
  | .rti => .pulls 3
  | .brk => .entry
  | .clc | .sec | .cli | .sei | .clv | .cld | .sed | .nop => .quiet

/-- `n` pushes, from the stack pointer down (R38). -/
def pushAccesses (s t : State) (n : Nat) : List Access :=
  (List.range n).map fun k => t.wrote (stackSlot (s.sp - BitVec.ofNat 8 k))

/-- `n` pulls, from the byte above the stack pointer up (R38). -/
def pullAccesses (s : State) (n : Nat) : List Access :=
  (List.range n).map fun k => s.reads (stackSlot (s.sp + 1 + BitVec.ofNat 8 k))

/-- An interrupt entry: three pushes, then the vector low byte first (R207, R33). -/
def entryAccesses (s t : State) (vector : Word) : List Access :=
  pushAccesses s t 3 ++ [t.reads vector, t.reads (vector + 1)]

/-- The pointer bytes a mode reads, low byte then high byte (R80 to R82). -/
def pointerAccesses (s : State) : Operand → List Access
  | .memory (.indirect p) => [s.reads p, s.reads (mkWord (hiByte p) (loByte p + 1))]
  | .memory (.indirectX z) => [s.reads (zeroPageAddr (z + s.x)), s.reads (zeroPageAddr (z + s.x + 1))]
  | .memory (.indirectY z) => [s.reads (zeroPageAddr z), s.reads (zeroPageAddr (z + 1))]
  | .implied | .accumulator | .immediate _ | .relative _ => []
  | .memory (.zeroPage _) | .memory (.zeroPageX _) | .memory (.zeroPageY _) => []
  | .memory (.absolute _) | .memory (.absoluteX _) | .memory (.absoluteY _) => []

/-- The data, stack and vector accesses of an instruction that takes `s` to `t` (R49 (4) to (6)). -/
def dataAccesses (i : Instr) (s t : State) : List Access :=
  match busRole i.mnemonic, i.operand with
  | .readData, .memory m => [s.reads (s.effectiveAddress m)]
  | .writeData, .memory m => [t.wrote (s.effectiveAddress m)]
  | .modifyData, .memory m => [s.reads (s.effectiveAddress m), t.wrote (s.effectiveAddress m)]
  | .pushes n, _ => pushAccesses s t n
  | .pulls n, _ => pullAccesses s n
  | .entry, _ => entryAccesses s t irqVector
  | .quiet, _ => []
  | .readData, _ | .writeData, _ | .modifyData, _ => []

/-- The reads of an instruction's own bytes (R49 (1) and (2)). -/
def fetchAccesses (s : State) : List Access :=
  (List.range (instrLength s.opcodeByte)).map fun k => s.reads (s.pc + BitVec.ofNat 16 k)

/-- The accesses of one `step()` in order (R49). -/
def stepAccesses (s : State) : List Access :=
  match s.service with
  | .nmi => entryAccesses s s.nmiEntry nmiVector
  | .irq => entryAccesses s s.irqEntry irqVector
  | .none =>
    match s.fetch with
    | .ok i _ =>
      match exec i s.fetched with
      | .next t => fetchAccesses s ++ pointerAccesses s.fetched i.operand ++ dataAccesses i s.fetched t
      | .fault _ | .refused _ => fetchAccesses s
    | .illegalOpcode _ | .truncated => fetchAccesses s

end Sys2Proof.Machine
end

