-- ==== Sys2Proof/Machine/Cycles.lean ====
section
/-! DEFINITION. The number a `step` returns (R235, R236, R59). It is an output: no register holds it and no rule of
the machine reads it (R21). -/

namespace Sys2Proof.Machine

/-- The cycle cost of an NMI or IRQ entry (R200, R236). -/
def entryCycles : Nat := 7

/-- The cycle number of a `reset()` (R231, R236, D16; log 14). -/
def resetCycles : Nat := 7

/-- The condition a branch mnemonic tests (R161 to R168); other mnemonics test none. -/
def branchCondition (f : Flags) : Mnemonic → Option Bool
  | .beq => some f.z
  | .bne => some !f.z
  | .bcc => some !f.c
  | .bcs => some f.c
  | .bmi => some f.n
  | .bpl => some !f.n
  | .bvc => some !f.v
  | .bvs => some f.v
  | _ => none

/-- The branch extra: one if taken, one more if taken across a page (R160, R235). -/
def branchExtra (f : Flags) (crossed : Bool) (i : Instr) : Nat :=
  match branchCondition f i.mnemonic with
  | some true => 1 + crossed.toNat
  | some false | none => 0

/-- The cycles of an instruction executed in the state after its fetch (R235): base, plus the page-cross extra when
the entry's flag is set and the mode reports a cross, plus the branch extra. -/
def instrCycles (i : Instr) (s : State) : Nat :=
  let crossed := (s.resolve i.operand).2
  match findEntry i.opcode with
  | some e => e.base + (e.pageExtra && crossed).toNat + branchExtra s.flags crossed i
  | none => 0

/-- The number `step()` returns, or none when it reports `IllegalOpcode` (R200, R202). -/
def stepCycles (s : State) : Option Nat :=
  match s.service with
  | .nmi | .irq => some entryCycles
  | .none =>
    match s.fetch with
    | .ok i _ => some (instrCycles i s.fetched)
    | .illegalOpcode _ | .truncated => none

end Sys2Proof.Machine
end

