-- ==== Sys2Proof/Machine/Environment.lean ====
section
/-! DEFINITION. The interface of R5: the transactions the environment calls, each atomic and each between two others
(R6), and what it can read (R24). -/

namespace Sys2Proof.Machine

/-- The transactions of R5, and the change of one memory location that R47 gives the environment. -/
inductive Transaction where
  | powerOn
  | reset
  | step
  | assertIrq
  | assertNmi
  | clearIrq
  | setPc (v : Word)
  | poke (addr : Word) (v : Byte)
  deriving DecidableEq, Repr

/-- What a transaction reports: nothing, the cycle number of a completed step, or the error of R202. -/
inductive Report where
  | done
  | cycles (n : Nat)
  | illegalOpcode (opcode : Byte) (pc : Word)
  | noMeaning
  deriving DecidableEq, Repr

/-- The state `power_on()` leaves: the core's state is fresh and memory is the environment's (R22, R230). -/
def State.powerOnSequence (s : State) : State := State.powerOn s.mem

/-- The state a transaction leaves (R5, R20, R24, R47, R202, R230 to R232). -/
def transact (s : State) : Transaction → State
  | .powerOn => s.powerOnSequence
  | .reset => s.resetSequence
  | .assertIrq => { s with irqPending := true }
  | .assertNmi => { s with nmiPending := true }
  | .clearIrq => { s with irqPending := false }
  | .setPc v => { s with pc := v }
  | .poke addr v => s.write addr v
  | .step =>
    match Sys2Proof.Machine.step s with
    | .next t => t
    | .fault (.illegalOpcode _ _) => s.afterIllegalOpcode
    | .refused _ => s

/-- What a transaction reports (R5, R200, R202). -/
def report (s : State) : Transaction → Report
  | .step =>
    match Sys2Proof.Machine.step s with
    | .next _ => .cycles ((stepCycles s).getD 0)
    | .fault (.illegalOpcode op pc) => .illegalOpcode op pc
    | .refused _ => .noMeaning
  | .powerOn | .reset | .assertIrq | .assertNmi | .clearIrq | .setPc _ | .poke _ _ => .done

/-- The bus accesses of a transaction: those of a step (R49), the two vector reads of `reset()` low byte first (R231),
none of any other (R230). -/
def transactionAccesses (s : State) : Transaction → List Access
  | .step => stepAccesses s
  | .reset => [s.reads resetVector, s.reads (resetVector + 1)]
  | .powerOn | .assertIrq | .assertNmi | .clearIrq | .setPc _ | .poke _ _ => []

/-- The cycle number of a transaction: that of a step that completes (R235), and that of a reset (R231, R236), which
`reset()` does not return (R5); the other transactions have none. -/
def transactionCycles (s : State) : Transaction → Option Nat
  | .step => stepCycles s
  | .reset => some resetCycles
  | .powerOn | .assertIrq | .assertNmi | .clearIrq | .setPc _ | .poke _ _ => none

/-- A sequence of transactions. -/
def transactAll (s : State) (ts : List Transaction) : State := ts.foldl transact s

/-- The status byte the accessor shows: `ToByte(B)` (R17, D25). -/
def State.statusByte (s : State) : Byte := s.flags.toByte s.flags.b

/-- The flag accessor (R24). -/
def State.flag (s : State) (name : FlagName) : Bool := s.flags.get name

end Sys2Proof.Machine
end

