-- ==== Sys2Proof/Machine/Run.lean ====
section
/-! DEFINITION. Runs and their end (R237). The core has no halt and no stopped state: the environment calls `step` until
it stops calling. The spec asks a model to say when, as a function of the launch: log 21. -/

namespace Sys2Proof.Machine

/-- Why a run ended. -/
inductive RunEnd where
  /-- PC is at the launch's stop address, and the step there is not called. -/
  | reached
  /-- A step raised `IllegalOpcode` (R202). -/
  | illegalOpcode (opcode : Byte) (pc : Word)
  /-- The launch's number of steps is used up. -/
  | outOfSteps
  /-- A step met an instruction without a meaning; no instruction is one. -/
  | noMeaning
  deriving DecidableEq, Repr

/-- A run: the state it ends in and why it ends. It checks the stop address before every step and after the last; no
other transaction comes between its steps. -/
def State.run (s : State) (stopAt : Option Word) : Nat → State × RunEnd
  | 0 => if some s.pc = stopAt then (s, .reached) else (s, .outOfSteps)
  | budget + 1 =>
    if some s.pc = stopAt then (s, .reached)
    else
      match step s with
      | .next t => State.run t stopAt budget
      | .fault (.illegalOpcode op pc) => (s.afterIllegalOpcode, .illegalOpcode op pc)
      | .refused _ => (s, .noMeaning)

/-- How a run is launched: what memory holds, the entry point if the environment sets it (the reset vector gives it
otherwise, R233), the address to stop at if any, and the number of steps. -/
structure Launch where
  mem : Memory
  entry : Option Word
  stopAt : Option Word
  budget : Nat
  deriving DecidableEq, Repr

/-- The state before the first step (R233): `power_on()`, then `set_pc(entry)`, or `reset()` where no entry is given. -/
def Launch.start (l : Launch) : State :=
  transactAll (State.powerOn l.mem)
    (match l.entry with
      | some v => [.setPc v]
      | none => [.reset])

/-- The run of a launch. -/
def Launch.run (l : Launch) : State × RunEnd := l.start.run l.stopAt l.budget

end Sys2Proof.Machine
end

