-- ==== Sys2Proof/Safety.lean ====
section
/-! DEFINITION. What claims call a good state, a step that completes, and a reachable state. -/

namespace Sys2Proof.Machine

/-- The invariant of the machine: memory keeps its canonical form, and the stored Break flag is 0 (R19). -/
def State.Inv (s : State) : Prop := s.mem.wf ∧ s.flags.b = false

/-- A step completes: it answers a next state (R235, R237). -/
def State.Completes (s : State) : Prop := ∃ t, step s = .next t

/-- A state that some sequence of transactions leads to from `power_on()` on a memory in canonical form (R5, R6). -/
def State.Reachable (s : State) : Prop :=
  ∃ (mem : Memory) (ts : List Transaction), mem.wf ∧ s = transactAll (State.powerOn mem) ts

end Sys2Proof.Machine
end

