-- ==== Sys2Proof/Certificates/Slice0/Obligations.lean ====
section
/-! DEFINITION. The statements for the provers, and the words they are written in. The state `s` of a statement about
`exec` is the state in which an instruction's semantics run: PC at the byte after the instruction (R14). Many rules carry
the spec's mark 'from general knowledge', opcode bytes among them: a statement formalises the rule as it is numbered
(log 15). -/

namespace Sys2Proof.Spec

open Sys2Proof.Machine

/-- A mnemonic has exactly these pairs of mode and opcode. -/
def Forms (m : Mnemonic) (forms : List (Mode × Byte)) : Prop :=
  (∀ i : Instr, i.mnemonic = m → (i.operand.mode, i.opcode) ∈ forms) ∧
    ∀ form ∈ forms, ∃ i : Instr, i.mnemonic = m ∧ i.operand.mode = form.1 ∧ i.opcode = form.2

/-- The flags with Z and N set from a value. -/
def zn (f : Flags) (v : Byte) : Flags := { f with z := decide (v = 0), n := v.getLsbD 7 }

/-- From `s` to `t` these cells hold these bytes and every other byte of memory reads as before. -/
def Stores (s t : State) (cells : List (Word × Byte)) : Prop :=
  (∀ cell ∈ cells, t.read cell.1 = cell.2) ∧
    ∀ addr, addr ∉ cells.map Prod.fst → t.read addr = s.read addr

/-- The one read of a resolved operand, where it is in memory. -/
def readOf : Resolved → Byte → List Access
  | .addr addr, v => [.read addr v]
  | .none, _ | .acc, _ | .imm _, _ | .rel _, _ => []

/-- An instruction that reads its operand: it has these forms, each form's operand has a value, the instruction takes
the state to `put s` of that value (so everything `put` does not name, memory included, is unchanged), and the only data
access is the one read of a memory operand. -/
def ReadRule (m : Mnemonic) (forms : List (Mode × Byte)) (put : State → Byte → State) : Prop :=
  Forms m forms ∧ ∀ (i : Instr) (s : State), i.mnemonic = m →
    ∃ v, s.loadOperand (s.resolve i.operand).1 = some v ∧ exec i s = .next (put s v) ∧
      dataAccesses i s (put s v) = readOf (s.resolve i.operand).1 v

/-- A store: one byte at the effective address, nothing else changed, one write and no read of it. -/
def StoreRule (m : Mnemonic) (forms : List (Mode × Byte)) (value : State → Byte) : Prop :=
  Forms m forms ∧ ∀ (i : Instr) (s : State), i.mnemonic = m →
    ∃ addr t, (s.resolve i.operand).1 = .addr addr ∧ exec i s = .next t ∧ Stores s t [(addr, value s)] ∧
      t = { s with mem := t.mem } ∧ dataAccesses i s t = [.write addr (value s)]

/-- A read-modify-write instruction: `f` gives the new byte and the new flags; on the accumulator no data access is
made, in memory one read and then one write of the effective address. -/
def ModifyRule (m : Mnemonic) (forms : List (Mode × Byte)) (f : Byte → Flags → Byte × Flags) : Prop :=
  Forms m forms ∧ ∀ (i : Instr) (s : State), i.mnemonic = m →
    ∃ t, exec i s = .next t ∧
      match (s.resolve i.operand).1 with
      | .acc => t = { s with a := (f s.a s.flags).1, flags := (f s.a s.flags).2 } ∧ dataAccesses i s t = []
      | .addr addr =>
        Stores s t [(addr, (f (s.read addr) s.flags).1)] ∧
          t = { s with flags := (f (s.read addr) s.flags).2, mem := t.mem } ∧
          dataAccesses i s t = [.read addr (s.read addr), .write addr (f (s.read addr) s.flags).1]
      | .none | .imm _ | .rel _ => False

/-- An Implied instruction with no data access: it has this one opcode and takes `s` to `put s`. -/
def QuietRule (i : Instr) (opcode : Byte) (put : State → State) : Prop :=
  i.opcode = opcode ∧ i.operand = .implied ∧ ∀ s : State, exec i s = .next (put s) ∧ dataAccesses i s (put s) = []

/-- A branch: one Relative opcode; in every state PC takes the target exactly when the condition holds, nothing else
changes, no data access is made, and the cycles are 2, or 3 if taken, or 4 if taken across a page. -/
def BranchRule (mk : Int → Instr) (opcode : Byte) (cond : Flags → Bool) : Prop :=
  ∀ (r : Int) (s : State), -128 ≤ r → r ≤ 127 →
    (mk r).opcode = opcode ∧ (mk r).operand = .relative r ∧
      (let target := s.pc + (BitVec.ofInt 8 r).signExtend 16
       exec (mk r) s = .next { s with pc := if cond s.flags then target else s.pc } ∧
         dataAccesses (mk r) s { s with pc := if cond s.flags then target else s.pc } = [] ∧
         instrCycles (mk r) s =
           if cond s.flags then 2 + 1 + (if hiByte target ≠ hiByte s.pc then 1 else 0) else 2)

/-- The three cells an interrupt entry writes: PC high, PC low, status (R207). -/
def entryCells (s : State) (pc : Word) (b4 : Bool) : List (Word × Byte) :=
  [(stackSlot s.sp, hiByte pc), (stackSlot (s.sp - 1), loByte pc), (stackSlot (s.sp - 2), s.flags.toByte b4)]

/-- From `s` to `t` an interrupt entry that saves `pc` goes through the vector at `lo` and `hi` (R207): the three stack
cells, SP, I and PC change and nothing else does. -/
def Enters (s t : State) (pc : Word) (lo hi : Word) (b4 : Bool) : Prop :=
  Stores s t (entryCells s pc b4) ∧
    t = { s with
      sp := s.sp - 3, pc := mkWord (s.read hi) (s.read lo), flags := { s.flags with i := true }, mem := t.mem }

/-- No interrupt is serviced at the start of the step (R200 (1)). -/
def NoService (s : State) : Prop := s.nmiPending = false ∧ (s.irqPending = true → s.flags.i = true)

/-- The 105 opcodes of the list under R55. -/
def illegalOpcodes : List Byte :=
  [0x02, 0x03, 0x04, 0x07, 0x0B, 0x0C, 0x0F, 0x12, 0x13, 0x14, 0x17, 0x1A, 0x1B, 0x1C, 0x1F, 0x22,
   0x23, 0x27, 0x2B, 0x2F, 0x32, 0x33, 0x34, 0x37, 0x3A, 0x3B, 0x3C, 0x3F, 0x42, 0x43, 0x44, 0x47,
   0x4B, 0x4F, 0x52, 0x53, 0x54, 0x57, 0x5A, 0x5B, 0x5C, 0x5F, 0x62, 0x63, 0x64, 0x67, 0x6B, 0x6F,
   0x72, 0x73, 0x74, 0x77, 0x7A, 0x7B, 0x7C, 0x7F, 0x80, 0x82, 0x83, 0x87, 0x89, 0x8B, 0x8F, 0x92,
   0x93, 0x97, 0x9B, 0x9C, 0x9E, 0x9F, 0xA3, 0xA7, 0xAB, 0xAF, 0xB2, 0xB3, 0xB7, 0xBB, 0xBF, 0xC2,
   0xC3, 0xC7, 0xCB, 0xCF, 0xD2, 0xD3, 0xD4, 0xD7, 0xDA, 0xDB, 0xDC, 0xDF, 0xE2, 0xE3, 0xE7, 0xEB,
   0xEF, 0xF2, 0xF3, 0xF4, 0xF7, 0xFA, 0xFB, 0xFC, 0xFF]

/-- Memory after the writes of a list of accesses, in order. -/
def applyWrites (m : Memory) : List Access → Memory
  | [] => m
  | .write addr v :: rest => applyWrites (m.write addr v) rest
  | .read _ _ :: rest => applyWrites m rest

/-- The cycle numbers by instruction class and mode (R236), `p` the page-cross report. -/
def classCycles (i : Instr) (p : Bool) : Option Nat :=
  match i.mnemonic, i.operand.mode with
  | .jmp, .absolute => some 3
  | .jmp, .indirect => some 5
  | .jsr, _ => some 6
  | .rts, _ | .rti, _ => some 6
  | .brk, _ => some 7
  | .pha, _ | .php, _ => some 3
  | .pla, _ | .plp, _ => some 4
  | .sta, mode | .stx, mode | .sty, mode =>
    match mode with
    | .zeroPage => some 3
    | .zeroPageX | .zeroPageY | .absolute => some 4
    | .absoluteX | .absoluteY => some 5
    | .indirectX | .indirectY => some 6
    | _ => none
  | .asl, mode | .lsr, mode | .rol, mode | .ror, mode | .inc, mode | .dec, mode =>
    match mode with
    | .accumulator => some 2
    | .zeroPage => some 5
    | .zeroPageX | .absolute => some 6
    | .absoluteX => some 7
    | _ => none
  | _, mode =>
    match mode with
    | .implied | .immediate => some 2
    | .zeroPage => some 3
    | .zeroPageX | .zeroPageY | .absolute => some 4
    | .absoluteX | .absoluteY => some (4 + p.toNat)
    | .indirectX => some 6
    | .indirectY => some (5 + p.toNat)
    | .accumulator | .indirect | .relative => none

/-- `n` steps lead from the first state to the second, and none of them is called at the stop address. -/
def Walk (stopAt : Option Word) : Nat → State → State → Prop
  | 0, s, t => s = t
  | n + 1, s, t => some s.pc ≠ stopAt ∧ ∃ u, step s = .next u ∧ Walk stopAt n u t

/-- Two states that differ in memory at most. -/
def SameButMemory (s s' : State) : Prop := s' = { s with mem := s'.mem }

end Sys2Proof.Spec

open Sys2Proof Sys2Proof.Machine Sys2Proof.Spec

/-- In every form the table gives LDA, LDX and LDY, in every state: the instruction completes, the named register takes the operand's value, Z is 1 iff it is 0 and N is its bit 7, nothing else changes (every other register and flag, both latches, every byte of memory), and a memory operand is read exactly once (R101, R102, R103). -/
def Obligations.LoadsTakeTheOperandValue : Prop :=
  ReadRule .lda
      [(.immediate, 0xA9), (.zeroPage, 0xA5), (.zeroPageX, 0xB5), (.absolute, 0xAD),
       (.absoluteX, 0xBD), (.absoluteY, 0xB9), (.indirectX, 0xA1), (.indirectY, 0xB1)]
      (fun s v => { s with a := v, flags := zn s.flags v }) ∧
    ReadRule .ldx
      [(.immediate, 0xA2), (.zeroPage, 0xA6), (.zeroPageY, 0xB6), (.absolute, 0xAE),
       (.absoluteY, 0xBE)]
      (fun s v => { s with x := v, flags := zn s.flags v }) ∧
    ReadRule .ldy
      [(.immediate, 0xA0), (.zeroPage, 0xA4), (.zeroPageX, 0xB4), (.absolute, 0xAC),
       (.absoluteX, 0xBC)]
      (fun s v => { s with y := v, flags := zn s.flags v })

/-- In every form the table gives STA, STX and STY, in every state: the instruction completes, the byte at the effective address becomes the register's value, every other byte, every register, flag and latch is unchanged, and the bus sees one write and no read of that address (R104, R105, R106). -/
def Obligations.StoresWriteOneByte : Prop :=
  StoreRule .sta
      [(.zeroPage, 0x85), (.zeroPageX, 0x95), (.absolute, 0x8D), (.absoluteX, 0x9D),
       (.absoluteY, 0x99), (.indirectX, 0x81), (.indirectY, 0x91)]
      (fun s => s.a) ∧
    StoreRule .stx
      [(.zeroPage, 0x86), (.zeroPageY, 0x96), (.absolute, 0x8E)]
      (fun s => s.x) ∧
    StoreRule .sty
      [(.zeroPage, 0x84), (.zeroPageX, 0x94), (.absolute, 0x8C)]
      (fun s => s.y)

/-- TAX, TXA, TAY, TYA and TSX each have the one opcode the spec gives, complete in every state, copy their source register to their destination, set Z and N from it, change nothing else and make no data access (R107 to R111). -/
def Obligations.TransfersCopyARegister : Prop :=
  QuietRule .tax 0xAA (fun s => { s with x := s.a, flags := zn s.flags s.a }) ∧
    QuietRule .txa 0x8A (fun s => { s with a := s.x, flags := zn s.flags s.x }) ∧
    QuietRule .tay 0xA8 (fun s => { s with y := s.a, flags := zn s.flags s.a }) ∧
    QuietRule .tya 0x98 (fun s => { s with a := s.y, flags := zn s.flags s.y }) ∧
    QuietRule .tsx 0xBA (fun s => { s with x := s.sp, flags := zn s.flags s.sp })

/-- TXS has opcode 9A, completes in every state, copies X to SP, sets Z and N from X exactly when TXS_UPDATES_NZ holds, changes nothing else and makes no data access; the switch is true, the value R4 and R112 give it (log 7). -/
def Obligations.TxsCopiesXToTheStackPointer : Prop :=
  QuietRule .txs 0x9A (fun s =>
      { s with sp := s.x, flags := if Config.txsUpdatesNZ then zn s.flags s.x else s.flags }) ∧
    Config.txsUpdatesNZ = true

/-- In every form of ADC, in every state: A takes the low byte of A + m + C, C is 1 iff the exact sum is above 255, V is Overflow(A, m, result, Add), Z and N come from the result, whatever D is; nothing else changes and a memory operand is read once (R120). -/
def Obligations.AdcAddsWithCarry : Prop :=
  ReadRule .adc
    [(.immediate, 0x69), (.zeroPage, 0x65), (.zeroPageX, 0x75), (.absolute, 0x6D),
      (.absoluteX, 0x7D), (.absoluteY, 0x79), (.indirectX, 0x61), (.indirectY, 0x71)]
    (fun s m =>
      let sum := s.a.toNat + m.toNat + s.flags.c.toNat
      let r := BitVec.ofNat 8 sum
      { s with a := r, flags := { zn s.flags r with v := overflow s.a m r .add, c := decide (256 ≤ sum) } })

/-- In every form of SBC, in every state: A takes A - m - (1 - C) modulo 256, C is 1 iff A >= m + (1 - C) as unsigned numbers, V is Overflow(A, m, result, Sub), Z and N come from the result, whatever D is; nothing else changes and a memory operand is read once (R121). -/
def Obligations.SbcSubtractsWithBorrow : Prop :=
  ReadRule .sbc
    [(.immediate, 0xE9), (.zeroPage, 0xE5), (.zeroPageX, 0xF5), (.absolute, 0xED),
      (.absoluteX, 0xFD), (.absoluteY, 0xF9), (.indirectX, 0xE1), (.indirectY, 0xF1)]
    (fun s m =>
      let borrow := if s.flags.c then 0 else 1
      let r := s.a - m - BitVec.ofNat 8 borrow
      { s with
        a := r
        flags := { zn s.flags r with
          v := overflow s.a m r .sub, c := decide (m.toNat + borrow ≤ s.a.toNat) } })

/-- Overflow for Add is true iff the operands agree in sign and the result differs from them, for Sub iff the operands differ in sign and the result differs from the first; Sub of m is Add of m ^ 0xFF; and V after ADC (after SBC) is 1 iff s(A) + s(m) + C (s(A) - s(m) - (1 - C)) lies outside -128 to 127 (R122; the bit expressions are the spec's general knowledge, log 15; that Sub of m is Add of m ^ 0xFF, and the sentence on numbers outside -128 to 127, are the spec's own inferences, marked 'derived' in R122). -/
def Obligations.OverflowIsTheSignedRangeError : Prop :=
  (∀ a m r : Byte,
      overflow a m r .add = decide (a.getLsbD 7 = m.getLsbD 7 ∧ r.getLsbD 7 ≠ a.getLsbD 7) ∧
        overflow a m r .sub = decide (a.getLsbD 7 ≠ m.getLsbD 7 ∧ r.getLsbD 7 ≠ a.getLsbD 7) ∧
        overflow a m r .sub = overflow a (m ^^^ 0xFF) r .add) ∧
    ∀ (m : Byte) (s : State),
      (∃ t, exec (.adcImm m) s = .next t ∧
        (t.flags.v = true ↔
          ¬(-128 ≤ s.a.toInt + m.toInt + (s.flags.c.toNat : Int) ∧
            s.a.toInt + m.toInt + (s.flags.c.toNat : Int) ≤ 127))) ∧
      ∃ t, exec (.sbcImm m) s = .next t ∧
        (t.flags.v = true ↔
          ¬(-128 ≤ s.a.toInt - m.toInt - (1 - (s.flags.c.toNat : Int)) ∧
            s.a.toInt - m.toInt - (1 - (s.flags.c.toNat : Int)) ≤ 127))

/-- For every form of ADC and SBC and every state: the answer from the state with any other value of D is the same next state with that value of D (R123; log 8). -/
def Obligations.DecimalFlagDoesNotReachArithmetic : Prop :=
  ∀ (i : Instr) (s : State) (d : Bool), i.mnemonic = .adc ∨ i.mnemonic = .sbc →
    ∃ t, exec i s = .next t ∧
      exec i { s with flags := { s.flags with d := d } } = .next { t with flags := { t.flags with d := d } }

/-- In every form of AND, ORA and EOR, in every state: A takes the bitwise and, or, exclusive or of A and the operand, Z and N come from it, nothing else changes and a memory operand is read once (R124, R125, R126). -/
def Obligations.LogicCombinesWithTheAccumulator : Prop :=
  ReadRule .and
      [(.immediate, 0x29), (.zeroPage, 0x25), (.zeroPageX, 0x35), (.absolute, 0x2D),
       (.absoluteX, 0x3D), (.absoluteY, 0x39), (.indirectX, 0x21), (.indirectY, 0x31)]
      (fun s m => { s with a := s.a &&& m, flags := zn s.flags (s.a &&& m) }) ∧
    ReadRule .ora
      [(.immediate, 0x09), (.zeroPage, 0x05), (.zeroPageX, 0x15), (.absolute, 0x0D),
       (.absoluteX, 0x1D), (.absoluteY, 0x19), (.indirectX, 0x01), (.indirectY, 0x11)]
      (fun s m => { s with a := s.a ||| m, flags := zn s.flags (s.a ||| m) }) ∧
    ReadRule .eor
      [(.immediate, 0x49), (.zeroPage, 0x45), (.zeroPageX, 0x55), (.absolute, 0x4D),
       (.absoluteX, 0x5D), (.absoluteY, 0x59), (.indirectX, 0x41), (.indirectY, 0x51)]
      (fun s m => { s with a := s.a ^^^ m, flags := zn s.flags (s.a ^^^ m) })

/-- In every form of CMP, CPX and CPY, in every state: C is 1 iff the register is at least the operand as unsigned numbers, Z and N come from the 8-bit difference, A, X, Y, V and everything else are unchanged and a memory operand is read once (R127, R128, R129). -/
def Obligations.ComparesSetOnlyFlags : Prop :=
  ReadRule .cmp
      [(.immediate, 0xC9), (.zeroPage, 0xC5), (.zeroPageX, 0xD5), (.absolute, 0xCD),
       (.absoluteX, 0xDD), (.absoluteY, 0xD9), (.indirectX, 0xC1), (.indirectY, 0xD1)]
      (fun s m => { s with flags := { zn s.flags (s.a - m) with c := decide (m.toNat ≤ s.a.toNat) } }) ∧
    ReadRule .cpx
      [(.immediate, 0xE0), (.zeroPage, 0xE4), (.absolute, 0xEC)]
      (fun s m => { s with flags := { zn s.flags (s.x - m) with c := decide (m.toNat ≤ s.x.toNat) } }) ∧
    ReadRule .cpy
      [(.immediate, 0xC0), (.zeroPage, 0xC4), (.absolute, 0xCC)]
      (fun s m => { s with flags := { zn s.flags (s.y - m) with c := decide (m.toNat ≤ s.y.toNat) } })

/-- In both forms of BIT, in every state: Z is 1 iff A & m is 0, N and V are bits 7 and 6 of the operand, A and everything else are unchanged and the operand is read once (R130). -/
def Obligations.BitTestSetsZNV : Prop :=
  ReadRule .bit [(.zeroPage, 0x24), (.absolute, 0x2C)]
    (fun s m =>
      { s with flags := { s.flags with z := decide (s.a &&& m = 0), n := m.getLsbD 7, v := m.getLsbD 6 } })

/-- In every form of ASL, LSR, ROL and ROR, in every state: the result is 2v, v/2, 2v + C, v/2 + 128C modulo 256 of the operand v, C takes the bit shifted out, Z and N come from the result; the result goes to A with no data access, or to the effective address with one read and then one write; nothing else changes (R140 to R144). -/
def Obligations.ShiftsAndRotatesMoveOneBit : Prop :=
  ModifyRule .asl
      [(.accumulator, 0x0A), (.zeroPage, 0x06), (.zeroPageX, 0x16), (.absolute, 0x0E),
       (.absoluteX, 0x1E)]
      (fun v f =>
        let r := BitVec.ofNat 8 (2 * v.toNat)
        (r, { zn f r with c := decide (128 ≤ v.toNat) })) ∧
    ModifyRule .lsr
      [(.accumulator, 0x4A), (.zeroPage, 0x46), (.zeroPageX, 0x56), (.absolute, 0x4E),
       (.absoluteX, 0x5E)]
      (fun v f =>
        let r := BitVec.ofNat 8 (v.toNat / 2)
        (r, { zn f r with c := decide (v.toNat % 2 = 1) })) ∧
    ModifyRule .rol
      [(.accumulator, 0x2A), (.zeroPage, 0x26), (.zeroPageX, 0x36), (.absolute, 0x2E),
       (.absoluteX, 0x3E)]
      (fun v f =>
        let r := BitVec.ofNat 8 (2 * v.toNat + f.c.toNat)
        (r, { zn f r with c := decide (128 ≤ v.toNat) })) ∧
    ModifyRule .ror
      [(.accumulator, 0x6A), (.zeroPage, 0x66), (.zeroPageX, 0x76), (.absolute, 0x6E),
       (.absoluteX, 0x7E)]
      (fun v f =>
        let r := BitVec.ofNat 8 (v.toNat / 2 + 128 * f.c.toNat)
        (r, { zn f r with c := decide (v.toNat % 2 = 1) }))

/-- In every form of INC and DEC, in every state: the byte at the effective address takes its value plus or minus 1 modulo 256, Z and N come from the result, C, V, every register and every other byte are unchanged, and the bus sees one read and then one write of that address (R145, R146). -/
def Obligations.MemoryIncrementAndDecrementWrap : Prop :=
  ModifyRule .inc
      [(.zeroPage, 0xE6), (.zeroPageX, 0xF6), (.absolute, 0xEE), (.absoluteX, 0xFE)]
      (fun v f => let r := BitVec.ofNat 8 (v.toNat + 1); (r, zn f r)) ∧
    ModifyRule .dec
      [(.zeroPage, 0xC6), (.zeroPageX, 0xD6), (.absolute, 0xCE), (.absoluteX, 0xDE)]
      (fun v f => let r := BitVec.ofNat 8 (v.toNat + 255); (r, zn f r))

/-- INX, INY, DEX and DEY each have the one opcode the spec gives, complete in every state, add or subtract 1 modulo 256 in their register, set Z and N from it, change nothing else and make no data access (R147 to R150). -/
def Obligations.RegisterIncrementAndDecrementWrap : Prop :=
  QuietRule .inx 0xE8 (fun s => { s with x := s.x + 1, flags := zn s.flags (s.x + 1) }) ∧
    QuietRule .iny 0xC8 (fun s => { s with y := s.y + 1, flags := zn s.flags (s.y + 1) }) ∧
    QuietRule .dex 0xCA (fun s => { s with x := s.x - 1, flags := zn s.flags (s.x - 1) }) ∧
    QuietRule .dey 0x88 (fun s => { s with y := s.y - 1, flags := zn s.flags (s.y - 1) })

/-- Each of BEQ, BNE, BCC, BCS, BMI, BPL, BVC, BVS has the one opcode the spec gives; for every offset -128 to 127 and every state it completes, PC takes PC + sext_16(rel8) iff its condition holds and stays after the branch otherwise, no flag, register or byte changes, no data access is made, and the cycles are 2, 3 if taken, 4 if taken across a page (R160 to R168; the conditions are the spec's general knowledge, log 15; the cycle numbers are log 14; that the cross compares with the page of PC is the spec's decision D11 of R83, log 20). -/
def Obligations.BranchesTakeTheTargetOnTheirCondition : Prop :=
  BranchRule .beq 0xF0 (fun f => f.z) ∧ BranchRule .bne 0xD0 (fun f => !f.z) ∧
    BranchRule .bcc 0x90 (fun f => !f.c) ∧ BranchRule .bcs 0xB0 (fun f => f.c) ∧
    BranchRule .bmi 0x30 (fun f => f.n) ∧ BranchRule .bpl 0x10 (fun f => !f.n) ∧
    BranchRule .bvc 0x50 (fun f => !f.v) ∧ BranchRule .bvs 0x70 (fun f => f.v)

/-- Both forms of JMP complete in every state, set PC to the resolved address, change nothing else, make no data access (the target byte is not read), and JMP Indirect takes its target's high byte from the page of its low byte (R169). -/
def Obligations.JmpSetsThePc : Prop :=
  Forms .jmp [(.absolute, 0x4C), (.indirect, 0x6C)] ∧
    (∀ (i : Instr) (s : State), i.mnemonic = .jmp →
      ∃ addr, (s.resolve i.operand).1 = .addr addr ∧ exec i s = .next { s with pc := addr } ∧
        dataAccesses i s { s with pc := addr } = []) ∧
    ∀ (hi lo : Byte) (s : State),
      exec (.jmpInd (mkWord hi lo)) s =
        .next { s with pc := mkWord (s.read (mkWord hi (lo + 1))) (s.read (mkWord hi lo)) }

/-- JSR has opcode 20, completes in every state, stores the high and the low byte of PC - 1 at the slots of SP and SP - 1, leaves SP - 2, sets PC to its operand, changes nothing else, and the bus sees the two writes high byte first (R170). -/
def Obligations.JsrPushesTheReturnAddress : Prop :=
  Forms .jsr [(.absolute, 0x20)] ∧
    ∀ (a : Word) (s : State), ∃ t, exec (.jsrAbs a) s = .next t ∧
      Stores s t [(stackSlot s.sp, hiByte (s.pc - 1)), (stackSlot (s.sp - 1), loByte (s.pc - 1))] ∧
      t = { s with sp := s.sp - 2, pc := a, mem := t.mem } ∧
      dataAccesses (.jsrAbs a) s t =
        [.write (stackSlot s.sp) (hiByte (s.pc - 1)), .write (stackSlot (s.sp - 1)) (loByte (s.pc - 1))]

/-- RTS has opcode 60, completes in every state, sets PC to the word at the slots of SP + 1 (low) and SP + 2 (high) plus 1, leaves SP + 2, changes nothing else (no byte of memory, no flag), and the bus sees the two reads low byte first (R171). -/
def Obligations.RtsReturnsPastThePoppedWord : Prop :=
  Instr.opcode .rts = 0x60 ∧ Instr.operand .rts = .implied ∧
    ∀ s : State, ∃ t, exec .rts s = .next t ∧
      t = { s with
        sp := s.sp + 2, pc := mkWord (s.read (stackSlot (s.sp + 2))) (s.read (stackSlot (s.sp + 1))) + 1 } ∧
      dataAccesses .rts s t =
        [.read (stackSlot (s.sp + 1)) (s.read (stackSlot (s.sp + 1))),
         .read (stackSlot (s.sp + 2)) (s.read (stackSlot (s.sp + 2)))]

/-- After JSR from any state, RTS run at any PC with the stack untouched gives back the PC after the JSR, the old SP and every other register and flag, for every SP, wraps included (T8, from R170, R171, R39). -/
def Obligations.RtsAfterJsrReturnsAfterTheCall : Prop :=
  ∀ (a : Word) (s : State), ∃ t, exec (.jsrAbs a) s = .next t ∧
    ∀ pc : Word, exec .rts { t with pc := pc } = .next { s with mem := t.mem }

/-- PHA (opcode 48) and PHP (opcode 08) complete in every state, store A, or the byte N V 1 1 D I Z C, at the slot of SP, leave SP - 1, change nothing else (no flag, no other byte), and the bus sees the one write (R180, R182). -/
def Obligations.PushesOfPhaAndPhp : Prop :=
  (Instr.opcode .pha = 0x48 ∧ Instr.operand .pha = .implied ∧
      ∀ s : State, ∃ t, exec .pha s = .next t ∧ Stores s t [(stackSlot s.sp, s.a)] ∧
        t = { s with sp := s.sp - 1, mem := t.mem } ∧
        dataAccesses .pha s t = [.write (stackSlot s.sp) s.a]) ∧
    Instr.opcode .php = 0x08 ∧ Instr.operand .php = .implied ∧
      ∀ s : State, ∃ t v, exec .php s = .next t ∧ Stores s t [(stackSlot s.sp, v)] ∧
        t = { s with sp := s.sp - 1, mem := t.mem } ∧ dataAccesses .php s t = [.write (stackSlot s.sp) v] ∧
        v.toNat = 0x30 + 128 * s.flags.n.toNat + 64 * s.flags.v.toNat + 8 * s.flags.d.toNat +
          4 * s.flags.i.toNat + 2 * s.flags.z.toNat + s.flags.c.toNat

/-- PLA (opcode 68) and PLP (opcode 28) complete in every state, leave SP + 1 and read the byte v at its slot once; PLA sets A to v and Z and N from it; PLP sets N, V, D, I, Z, C to bits 7, 6, 3, 2, 1, 0 of v and keeps B; nothing else changes, no byte of memory included (R181, R183; that bits 5 and 4 are ignored and B kept is the spec's decision D2, log 16). -/
def Obligations.PullsOfPlaAndPlp : Prop :=
  (Instr.opcode .pla = 0x68 ∧ Instr.operand .pla = .implied ∧
      ∀ s : State, ∃ t v, v = s.read (stackSlot (s.sp + 1)) ∧ exec .pla s = .next t ∧
        t = { s with a := v, sp := s.sp + 1, flags := zn s.flags v } ∧
        dataAccesses .pla s t = [.read (stackSlot (s.sp + 1)) v]) ∧
    Instr.opcode .plp = 0x28 ∧ Instr.operand .plp = .implied ∧
      ∀ s : State, ∃ t v, v = s.read (stackSlot (s.sp + 1)) ∧ exec .plp s = .next t ∧
        t = { s with
          sp := s.sp + 1
          flags :=
            { n := v.getLsbD 7, v := v.getLsbD 6, b := s.flags.b, d := v.getLsbD 3, i := v.getLsbD 2,
              z := v.getLsbD 1, c := v.getLsbD 0 } } ∧
        dataAccesses .plp s t = [.read (stackSlot (s.sp + 1)) v]

/-- RTI has opcode 40, completes in every state, loads N, V, D, I, Z, C from the byte at the slot of SP + 1 (B kept), PC from the slots of SP + 2 (low) and SP + 3 (high) with no increment, leaves SP + 3, changes nothing else, and the bus sees the three reads in that order (R184; that bits 5 and 4 are ignored and B kept is the spec's decision D2, log 16). -/
def Obligations.RtiRestoresStatusAndPc : Prop :=
  Instr.opcode .rti = 0x40 ∧ Instr.operand .rti = .implied ∧
    ∀ s : State, ∃ t v, v = s.read (stackSlot (s.sp + 1)) ∧ exec .rti s = .next t ∧
      t = { s with
        sp := s.sp + 3
        pc := mkWord (s.read (stackSlot (s.sp + 3))) (s.read (stackSlot (s.sp + 2)))
        flags :=
          { n := v.getLsbD 7, v := v.getLsbD 6, b := s.flags.b, d := v.getLsbD 3, i := v.getLsbD 2,
            z := v.getLsbD 1, c := v.getLsbD 0 } } ∧
      dataAccesses .rti s t =
        [.read (stackSlot (s.sp + 1)) v, .read (stackSlot (s.sp + 2)) (s.read (stackSlot (s.sp + 2))),
         .read (stackSlot (s.sp + 3)) (s.read (stackSlot (s.sp + 3)))]

/-- BRK has opcode 00, completes in every state, saves PC + 1 (the BRK opcode address + 2) and the status with bit 4 = 1 on the stack, sets I, loads PC from 0xFFFE and 0xFFFF, changes nothing else (no register, D, B, no other byte), and the bus sees three writes and two reads in order (R185; that BRK is not masked and saves the address + 2 is the spec's decision D13, log 20). -/
def Obligations.BrkEntersThroughTheIrqVector : Prop :=
  Instr.opcode .brk = 0x00 ∧ Instr.operand .brk = .implied ∧
    ∀ s : State, ∃ t, exec .brk s = .next t ∧ Enters s t (s.pc + 1) 0xFFFE 0xFFFF true ∧
      dataAccesses .brk s t =
        (entryCells s (s.pc + 1) true).map (fun cell => .write cell.1 cell.2) ++
          [.read 0xFFFE (s.read 0xFFFE), .read 0xFFFF (s.read 0xFFFF)]

/-- Each of the seven flag instructions has the one opcode the spec gives, completes in every state, writes its one flag, changes nothing else and makes no data access (R186 to R192). -/
def Obligations.FlagInstructionsWriteOneFlag : Prop :=
  QuietRule .clc 0x18 (fun s => { s with flags := { s.flags with c := false } }) ∧
    QuietRule .sec 0x38 (fun s => { s with flags := { s.flags with c := true } }) ∧
    QuietRule .cli 0x58 (fun s => { s with flags := { s.flags with i := false } }) ∧
    QuietRule .sei 0x78 (fun s => { s with flags := { s.flags with i := true } }) ∧
    QuietRule .clv 0xB8 (fun s => { s with flags := { s.flags with v := false } }) ∧
    QuietRule .cld 0xD8 (fun s => { s with flags := { s.flags with d := false } }) ∧
    QuietRule .sed 0xF8 (fun s => { s with flags := { s.flags with d := true } })

/-- NOP has opcode EA and leaves every state as it is, with no data access; and a step that finds EA at PC with no interrupt to service answers the same state with PC + 1 (R193). -/
def Obligations.NopOnlyAdvancesThePc : Prop :=
  QuietRule .nop 0xEA (fun s => s) ∧
    ∀ s : State, NoService s → s.read s.pc = 0xEA → step s = .next { s with pc := s.pc + 1 }

/-- ToByte(b4) has N V 1 b4 D I Z C in bits 7 to 0; FromByte loads six flags and keeps B; after FromByte(v), ToByte(b4) is (v & 0xCF) | 0x20 | b4 << 4; and FromByte(ToByte(b4)) gives back the six flags for both values of b4 (R16, R17, R18, T1; that bits 5 and 4 are ignored and B kept is the spec's decision D2, log 16). -/
def Obligations.StatusByteLayoutAndRoundTrip : Prop :=
  (∀ (f : Flags) (b4 : Bool) (name : FlagName),
      (f.toByte b4).getLsbD name.bit =
        match name with
        | .unused => true
        | .b => b4
        | .n => f.n | .v => f.v | .d => f.d | .i => f.i | .z => f.z | .c => f.c) ∧
    (∀ (v : Byte) (f : Flags) (b4 : Bool),
      f.fromByte v =
          { n := v.getLsbD 7, v := v.getLsbD 6, b := f.b, d := v.getLsbD 3, i := v.getLsbD 2, z := v.getLsbD 1,
            c := v.getLsbD 0 } ∧
        (f.fromByte v).toByte b4 = (v &&& 0xCF) ||| 0x20 ||| (if b4 then 0x10 else 0)) ∧
    ∀ (f g : Flags) (b4 : Bool), g.fromByte (f.toByte b4) = { f with b := g.b }

/-- Push(v) stores v at the slot of SP and leaves SP - 1, Pop leaves SP + 1 and returns the byte at its slot; PushWord(w) stores the high byte at the slot of s and the low byte at the slot of s - 1 and leaves s - 2; PopWord after PushWord(w) returns w and restores SP; every slot is in 0x0100 to 0x01FF and no other byte changes, for every SP, wraps included (R37, R38, R39). -/
def Obligations.StackWordsGoHighByteFirst : Prop :=
  (∀ p : Byte, (stackSlot p).toNat = 0x100 + p.toNat) ∧
    (∀ (s : State) (v : Byte),
      Stores s (s.push v) [(stackSlot s.sp, v)] ∧ s.push v = { s with sp := s.sp - 1, mem := (s.push v).mem } ∧
        s.pop = { s with sp := s.sp + 1 } ∧ s.top = s.read (stackSlot (s.sp + 1)) ∧ (s.push v).top = v) ∧
    ∀ (s : State) (w : Word),
      Stores s (s.pushWord w) [(stackSlot s.sp, hiByte w), (stackSlot (s.sp - 1), loByte w)] ∧
        s.pushWord w = { s with sp := s.sp - 2, mem := (s.pushWord w).mem } ∧
        s.topWord = mkWord (s.read (stackSlot (s.sp + 2))) (s.read (stackSlot (s.sp + 1))) ∧
        (s.pushWord w).topWord = w ∧ (s.pushWord w).popWord.sp = s.sp

/-- For every operand byte z and state: the three zero-page modes have the one operand byte z, resolve to the address z, (z + X) mod 256, (z + Y) mod 256 and report no page cross (R74, R75, R76). -/
def Obligations.ZeroPageModesStayInZeroPage : Prop :=
  ∀ (s : State) (z : Byte),
    (∃ addr, s.resolve (.memory (.zeroPage z)) = (.addr addr, false) ∧ addr.toNat = z.toNat) ∧
      (∃ addr, s.resolve (.memory (.zeroPageX z)) = (.addr addr, false) ∧
        addr.toNat = (z.toNat + s.x.toNat) % 256) ∧
      (∃ addr, s.resolve (.memory (.zeroPageY z)) = (.addr addr, false) ∧
        addr.toNat = (z.toNat + s.y.toNat) % 256) ∧
      (Operand.memory (.zeroPage z)).bytes = [z] ∧ (Operand.memory (.zeroPageX z)).bytes = [z] ∧
      (Operand.memory (.zeroPageY z)).bytes = [z]

/-- For operand bytes lo, hi and every state: the three absolute modes have the bytes lo, hi in that order, resolve to 256 hi + lo, that plus X, that plus Y modulo 65536, and report a page cross iff the high byte of the address differs from hi, never for Absolute (R77, R78, R79). -/
def Obligations.AbsoluteModesAddTheIndex : Prop :=
  ∀ (s : State) (lo hi : Byte),
    (∃ addr, s.resolve (.memory (.absolute (mkWord hi lo))) = (.addr addr, false) ∧
        addr.toNat = 256 * hi.toNat + lo.toNat) ∧
      (∃ addr, s.resolve (.memory (.absoluteX (mkWord hi lo))) = (.addr addr, decide (hiByte addr ≠ hi)) ∧
        addr.toNat = (256 * hi.toNat + lo.toNat + s.x.toNat) % 65536) ∧
      (∃ addr, s.resolve (.memory (.absoluteY (mkWord hi lo))) = (.addr addr, decide (hiByte addr ≠ hi)) ∧
        addr.toNat = (256 * hi.toNat + lo.toNat + s.y.toNat) % 65536) ∧
      (Operand.memory (.absolute (mkWord hi lo))).bytes = [lo, hi] ∧
      (Operand.memory (.absoluteX (mkWord hi lo))).bytes = [lo, hi] ∧
      (Operand.memory (.absoluteY (mkWord hi lo))).bytes = [lo, hi]

/-- For pointer bytes lo, hi and every state: Indirect resolves to the word whose low byte is at {hi, lo} and whose high byte is at {hi, (lo + 1) mod 256}, with no page cross; JMP is its only user, its bytes are lo, hi, and the bus sees the two reads low byte first (R80). -/
def Obligations.IndirectReadsItsPointerInOnePage : Prop :=
  (∀ (s : State) (lo hi : Byte),
      s.resolve (.memory (.indirect (mkWord hi lo))) =
          (.addr (mkWord (s.read (mkWord hi (lo + 1))) (s.read (mkWord hi lo))), false) ∧
        pointerAccesses s (.memory (.indirect (mkWord hi lo))) =
          [.read (mkWord hi lo) (s.read (mkWord hi lo)), .read (mkWord hi (lo + 1)) (s.read (mkWord hi (lo + 1)))] ∧
        (Operand.memory (.indirect (mkWord hi lo))).bytes = [lo, hi]) ∧
    ∀ i : Instr, i.operand.mode = .indirect → i.mnemonic = .jmp

/-- For every operand byte z and state: IndirectX resolves to the word at zero-page addresses p and (p + 1) mod 256 with p = (z + X) mod 256 and reports no cross; IndirectY adds Y modulo 65536 to the word at z and (z + 1) mod 256 and reports a cross iff the high byte changed; the bus sees the pointer reads low byte first (R81, R82; that the pointer wraps in zero page is the spec's decision D9, log 20). -/
def Obligations.ZeroPagePointersWrapInZeroPage : Prop :=
  ∀ (s : State) (z : Byte),
    (∃ p q : Word, p.toNat = (z.toNat + s.x.toNat) % 256 ∧ q.toNat = (z.toNat + s.x.toNat + 1) % 256 ∧
        s.resolve (.memory (.indirectX z)) = (.addr (mkWord (s.read q) (s.read p)), false) ∧
        pointerAccesses s (.memory (.indirectX z)) = [.read p (s.read p), .read q (s.read q)]) ∧
      (∃ p q ea : Word, p.toNat = z.toNat ∧ q.toNat = (z.toNat + 1) % 256 ∧
        ea.toNat = (256 * (s.read q).toNat + (s.read p).toNat + s.y.toNat) % 65536 ∧
        s.resolve (.memory (.indirectY z)) = (.addr ea, decide (hiByte ea ≠ s.read q)) ∧
        pointerAccesses s (.memory (.indirectY z)) = [.read p (s.read p), .read q (s.read q)]) ∧
      (Operand.memory (.indirectX z)).bytes = [z] ∧ (Operand.memory (.indirectY z)).bytes = [z]

/-- For every operand byte r and state with PC after the operand: Relative resolves to PC + r as a signed number modulo 65536, its cross compares the page of the target with the page of PC, its operand is the one byte r, and only the eight branches use it (R83; that the cross compares with the page of PC is the spec's decision D11, log 20). -/
def Obligations.RelativeTargetIsSigned : Prop :=
  (∀ (s : State) (r : Byte), ∃ target : Word,
      s.resolve (.relative r.toInt) = (.rel target, decide (hiByte target ≠ hiByte s.pc)) ∧
        (target.toNat : Int) = ((s.pc.toNat : Int) + r.toInt) % 65536 ∧ (Operand.relative r.toInt).bytes = [r]) ∧
    ∀ i : Instr, i.operand.mode = .relative →
      i.mnemonic ∈ [Mnemonic.beq, .bne, .bcc, .bcs, .bmi, .bpl, .bvc, .bvs]

/-- In every state a mode that reports a page cross is AbsoluteX, AbsoluteY, IndirectY or Relative; and two instructions of one mnemonic whose operands resolve to the same value, address or target answer the same next state, whatever each reports: no register, flag or memory result depends on the report (R84; log 20). -/
def Obligations.OnlyFourModesReportAPageCross : Prop :=
  (∀ (s : State) (o : Operand), (s.resolve o).2 = true →
      o.mode ∈ [Mode.absoluteX, .absoluteY, .indirectY, .relative]) ∧
    ∀ (i i' : Instr) (s : State), i.mnemonic = i'.mnemonic →
      (s.resolve i.operand).1 = (s.resolve i'.operand).1 → ∃ t, exec i s = .next t ∧ exec i' s = .next t

/-- From every state: a step with an NMI pending, a step with an unmasked IRQ and no NMI pending, and BRK each complete by the same entry: PC and the status byte with bit 5 = 1 go on the stack, I is set after the byte is built, PC comes from 0xFFFA, 0xFFFE, 0xFFFE, bit 4 is 0, 0, 1; A, X, Y, N, V, B, D, Z, C and every other byte are unchanged, but for the latch of the serviced request, which is cleared (R200, R207, R209; that a request is one latch cleared by its service is the spec's decision D6 and D7, log 9; that BRK enters whatever I is and saves the address + 2 is its decision D13, log 20). -/
def Obligations.InterruptEntriesShareOneShape : Prop :=
  (∀ s : State, s.nmiPending = true →
      ∃ t, step s = .next t ∧ Enters { s with nmiPending := false } t s.pc 0xFFFA 0xFFFB false) ∧
    (∀ s : State, s.nmiPending = false → s.irqPending = true → s.flags.i = false →
      ∃ t, step s = .next t ∧ Enters { s with irqPending := false } t s.pc 0xFFFE 0xFFFF false) ∧
    (∀ s : State, ∃ t, exec .brk s = .next t ∧ Enters s t (s.pc + 1) 0xFFFE 0xFFFF true) ∧
    ∀ (f : Flags) (b4 : Bool), (f.toByte b4).getLsbD 5 = true ∧ (f.toByte b4).getLsbD 4 = b4

/-- With irq_pending = 1: if an NMI is pending the step services the NMI, the IRQ latch is kept and I is 1; if I = 1 and no NMI is pending, a step that finds a legal opcode executes that instruction and the IRQ latch is kept (R204, R206; log 9). -/
def Obligations.MaskedIrqStaysLatched : Prop :=
  (∀ s : State, s.nmiPending = true → s.irqPending = true →
      ∃ t, step s = .next t ∧ t.nmiPending = false ∧ t.irqPending = true ∧ t.flags.i = true ∧
        t.pc = mkWord (s.read 0xFFFB) (s.read 0xFFFA)) ∧
    ∀ s : State, s.nmiPending = false → s.irqPending = true → s.flags.i = true → s.read s.pc ∉ illegalOpcodes →
      ∃ i t, s.fetch = .ok i [] ∧ exec i s.fetched = .next t ∧ step s = .next t ∧ t.irqPending = true ∧
        t.nmiPending = false

/-- With irq_pending = 1 and no NMI: the step after CLI is the IRQ entry that saves the address of the instruction after CLI, with the saved I = 0; and after SEI no interrupt is serviced by the next step (R220; log 10). -/
def Obligations.FlagIChangeTakesEffectAtTheNextStep : Prop :=
  ∀ s : State, s.nmiPending = false → s.irqPending = true →
    (∃ t u, exec .cli s = .next t ∧ step t = .next u ∧ t.flags.i = false ∧
        Enters { t with irqPending := false } u s.pc 0xFFFE 0xFFFF false) ∧
      ∃ t, exec .sei s = .next t ∧ NoService t

/-- After an NMI entry or an IRQ entry from any state, RTI run at any PC with the stack untouched restores the interrupted PC, SP and all seven flags; A, X and Y were never changed (R210; log 16). -/
def Obligations.RtiUndoesAnInterruptEntry : Prop :=
  (∀ s : State, s.nmiPending = true → ∃ t, step s = .next t ∧
      ∀ pc : Word, exec .rti { t with pc := pc } = .next { s with nmiPending := false, mem := t.mem }) ∧
    ∀ s : State, s.nmiPending = false → s.irqPending = true → s.flags.i = false → ∃ t, step s = .next t ∧
      ∀ pc : Word, exec .rti { t with pc := pc } = .next { s with irqPending := false, mem := t.mem }

/-- In every state: the step faults iff no interrupt is serviced and the byte at PC is one of the 105 opcodes, and then the fault carries that byte and its address, the transaction leaves PC + 1 and nothing else changed, no cycle number is returned and only the opcode byte is read; in every other case the step answers a next state (R202, R237; the PC left is the spec's decision D4, log 6). -/
def Obligations.StepFaultsExactlyOnAnIllegalOpcode : Prop :=
  ∀ s : State,
    (NoService s ∧ s.read s.pc ∈ illegalOpcodes →
        step s = .fault (.illegalOpcode (s.read s.pc) s.pc) ∧
          transact s .step = { s with pc := s.pc + 1 } ∧
          report s .step = .illegalOpcode (s.read s.pc) s.pc ∧
          stepCycles s = none ∧ stepAccesses s = [.read s.pc (s.read s.pc)]) ∧
      (¬(NoService s ∧ s.read s.pc ∈ illegalOpcodes) →
        ∃ t n, step s = .next t ∧ stepCycles s = some n ∧ transact s .step = t ∧ report s .step = .cycles n)

/-- Decoding refuses an opcode by name, whatever bytes follow, iff it is in the list of R55; the list has 105 different values (R55; that all 105 are refused is the spec's decision D17, logs 6 and 15). -/
def Obligations.IllegalOpcodesAreTheListed105 : Prop :=
  (∀ (op : Byte) (rest : List Byte), decode (op :: rest) = .illegalOpcode op ↔ op ∈ illegalOpcodes) ∧
    illegalOpcodes.length = 105 ∧ illegalOpcodes.Nodup

/-- In every state with no interrupt to service: if the three bytes at PC, PC + 1, PC + 2 (modulo 65536) decode to an instruction with some bytes left over, the step is that instruction run in the same state with PC advanced over its bytes; the step's bus accesses are the reads of those bytes at ascending addresses, then the instruction's pointer reads, then its data, stack and vector accesses, and no others; and the number the step returns is the instruction's (R49, R200, R235; that a step's accesses and number are outputs of the model is log 19). -/
def Obligations.StepRunsTheDecodedInstruction : Prop :=
  ∀ (s : State) (i : Instr) (rest : List Byte), NoService s → decode (s.bytesAt s.pc 3) = .ok i rest →
    let s' := { s with pc := s.pc + BitVec.ofNat 16 (3 - rest.length) }
    step s = exec i s' ∧
      (∃ t, exec i s' = .next t ∧
        stepAccesses s =
          (List.range (3 - rest.length)).map
              (fun k => Access.read (s.pc + BitVec.ofNat 16 k) (s.read (s.pc + BitVec.ofNat 16 k))) ++
            pointerAccesses s' i.operand ++ dataAccesses i s' t) ∧
      stepCycles s = some (instrCycles i s') ∧ report s .step = .cycles (instrCycles i s')

/-- The bytes A9 42, 00, B5 FF, 20 00 90, 6C FF 30, D0 FB, 0A and 9D F0 12, each with more bytes after it, decode to LDA #$42, BRK, LDA $FF,X, JSR $9000, JMP ($30FF), BNE -5, ASL A and STA $12F0,X (R57, R59). -/
def Obligations.SampleWordsDecode : Prop :=
  ∀ rest : List Byte,
    decode (0b10101001 :: 0x42 :: rest) = .ok (.ldaImm 0x42) rest ∧ decode (0b00000000 :: rest) = .ok .brk rest ∧
      decode (0b10110101 :: 0xFF :: rest) = .ok (.ldaZpX 0xFF) rest ∧
      decode (0b00100000 :: 0x00 :: 0x90 :: rest) = .ok (.jsrAbs 0x9000) rest ∧
      decode (0b01101100 :: 0xFF :: 0x30 :: rest) = .ok (.jmpInd 0x30FF) rest ∧
      decode (0b11010000 :: 0xFB :: rest) = .ok (.bne (-5)) rest ∧
      decode (0b00001010 :: rest) = .ok .aslAcc rest ∧
      decode (0b10011101 :: 0xF0 :: 0x12 :: rest) = .ok (.staAbsX 0x12F0) rest

/-- For every one of the 151 instructions with every operand its encoding admits, and every list of bytes after it: decode of its encoding followed by the list is that instruction and that list; the encoding has 1, 2 or 3 bytes, as many as its opcode alone says (R50, R51, R52, R56). -/
def Obligations.DecodeOfEncodeIsTheInstruction : Prop :=
  ∀ (i : Instr) (rest : List Byte), i.wellFormed = true →
    decode (encode i ++ rest) = .ok i rest ∧ instrLength i.opcode = (encode i).length ∧ (encode i).length ≤ 3

/-- If a list of bytes decodes to an instruction and a rest, the instruction is well-formed and the list is its encoding followed by the rest: each word has one meaning (R53). -/
def Obligations.EveryDecodedWordIsAnEncoding : Prop :=
  ∀ (bytes rest : List Byte) (i : Instr), decode bytes = .ok i rest →
    i.wellFormed = true ∧ bytes = encode i ++ rest

/-- From every state reset() sets I to 1, SP to 0xFD and PC to the word at 0xFFFC and 0xFFFD, leaves A, X, Y, N, V, B, D, Z, C, both latches and memory as they are, and the bus sees the two reads low byte first; and from every state power_on() and then reset() leave A = X = Y = 0, SP = 0xFD, that word in PC, I = 1, the other flags and both latches 0, and memory as it was (R231, R232; what reset() leaves alone is the spec's decision D8, log 17; the flags after power_on() are its decision D1, log 3, and the latches its decision D30, log 9). -/
def Obligations.ResetWritesOnlyIAndSpAndPc : Prop :=
  (∀ s : State,
      transact s .reset =
          { s with
            flags := { s.flags with i := true }, sp := 0xFD, pc := mkWord (s.read 0xFFFD) (s.read 0xFFFC) } ∧
        transactionAccesses s .reset = [.read 0xFFFC (s.read 0xFFFC), .read 0xFFFD (s.read 0xFFFD)]) ∧
    ∀ s : State, (transactAll s [.powerOn, .reset]) =
      { a := 0, x := 0, y := 0, sp := 0xFD, pc := mkWord (s.read 0xFFFD) (s.read 0xFFFC),
        flags := { n := false, v := false, b := false, d := false, i := true, z := false, c := false },
        nmiPending := false, irqPending := false, mem := s.mem }

/-- From every state power_on() gives A = X = Y = 0, SP = 0xFD, PC = 0, I = 1, the other flags 0, both latches 0, leaves memory, and makes no bus access; the status byte then reads 0x24, and 0x34 with bit 4 set; State.reset is that state after reset() on a memory with nothing listed (R22, R230; the flags are the spec's decision D1, log 3, and the latches its decision D30, log 9; that State.reset is power_on() and then reset() is the model's inference, log 4; that an unlisted byte, the vector's among them, reads 0x00 is the model's choice, log 1). -/
def Obligations.PowerOnValues : Prop :=
  (∀ s : State,
      transact s .powerOn =
          { a := 0, x := 0, y := 0, sp := 0xFD, pc := 0,
            flags := { n := false, v := false, b := false, d := false, i := true, z := false, c := false },
            nmiPending := false, irqPending := false, mem := s.mem } ∧
        transactionAccesses s .powerOn = [] ∧ (transact s .powerOn).statusByte = 0x24 ∧
        (transact s .powerOn).flags.toByte true = 0x34) ∧
    State.reset = transactAll { State.reset with mem := [] } [.powerOn, .reset]

/-- assert_irq and clear_irq write the IRQ latch, assert_nmi the NMI latch, set_pc writes PC, a change of memory by the environment writes one byte, each in every state and with nothing else changed; a request asserted twice is one request; and the flag accessor shows each stored flag, and 1 for Unused (R20, R24, R47; that a request is one latch is the spec's decision D6 and D7, log 9; the change of one byte as a transaction of its own is log 11; that the Unused flag reads 1 is its decision D26, log 16). -/
def Obligations.EnvironmentTransactionsWriteOneThing : Prop :=
  ∀ s : State,
    transact s .assertIrq = { s with irqPending := true } ∧ transact s .clearIrq = { s with irqPending := false } ∧
      transact s .assertNmi = { s with nmiPending := true } ∧
      transactAll s [.assertNmi, .assertNmi] = transact s .assertNmi ∧
      transactAll s [.assertIrq, .assertIrq] = transact s .assertIrq ∧
      (∀ v : Word, transact s (.setPc v) = { s with pc := v }) ∧
      (∀ (addr : Word) (v : Byte), Stores s (transact s (.poke addr v)) [(addr, v)] ∧
        transact s (.poke addr v) = { s with mem := (transact s (.poke addr v)).mem }) ∧
      ∀ name : FlagName, s.flag name =
        match name with
        | .unused => true
        | .n => s.flags.n | .v => s.flags.v | .b => s.flags.b | .d => s.flags.d | .i => s.flags.i
        | .z => s.flags.z | .c => s.flags.c

/-- From every state in which memory is in canonical form and B is 0, a step that answers a next state answers one in which both hold: no instruction and no entry writes B (R19), and every store keeps the form of memory. -/
def Obligations.StepKeepsTheInvariant : Prop :=
  ∀ s t : State, s.Inv → step s = .next t → t.Inv

/-- State.reset meets the invariant that every step keeps (R19, R22). -/
def Obligations.ResetHasTheInvariant : Prop :=
  State.reset.Inv

/-- From power_on() on any memory in canonical form, after every sequence of steps, resets, power-ons, interrupt requests, set_pc calls and changes of memory by the environment, IllegalOpcode reports included, memory is canonical and B is 0 (R5, R6, R19). -/
def Obligations.ReachableStatesHaveTheInvariant : Prop :=
  ∀ s : State, s.Reachable → s.Inv

/-- If two memories are in canonical form and every one of the 65536 addresses reads alike in both, they are equal data: the model's form of memory has one list for each content (R30; the form is the model's own). -/
def Obligations.CanonicalMemoriesAgreeOnlyIfEqual : Prop :=
  ∀ m m' : Memory, m.wf → m'.wf → (∀ addr : Word, m.read addr = m'.read addr) → m = m'

/-- In every state whose step answers a next state, applying the writes of the step's list of bus accesses in order to the memory before gives the memory after: the step writes nothing else (R49; log 19). -/
def Obligations.StepWritesAreItsBusWrites : Prop :=
  ∀ s t : State, step s = .next t → t.mem = applyWrites s.mem (stepAccesses s)

/-- If two states differ in memory at most and the second holds, at every address the first state's step reads, the byte that step read, then both steps make the same bus accesses in the same order, return the same cycle number, leave the same registers, flags and latches, and report the same fault (R7, R49; log 19). -/
def Obligations.StepDependsOnlyOnTheBytesItReads : Prop :=
  ∀ s s' : State, SameButMemory s s' →
    (∀ (addr : Word) (v : Byte), Access.read addr v ∈ stepAccesses s → s'.read addr = v) →
      stepAccesses s' = stepAccesses s ∧ stepCycles s' = stepCycles s ∧
        (∀ t, step s = .next t → ∃ t', step s' = .next t' ∧ SameButMemory t t') ∧
        ∀ f, step s = .fault f → step s' = .fault f

/-- For every instruction and state: A, X, Y, SP, PC or a byte of memory differs in the next state only if the instruction is one the table of R25 (or R14) gives as its writer; no instruction changes an interrupt latch (R20). -/
def Obligations.RegistersAndMemoryHaveTheirWriters : Prop :=
  ∀ (i : Instr) (s t : State), exec i s = .next t →
    (t.a ≠ s.a →
        i.mnemonic ∈ [Mnemonic.lda, .txa, .tya, .adc, .sbc, .and, .ora, .eor, .pla] ∨
          i.mnemonic ∈ [Mnemonic.asl, .lsr, .rol, .ror] ∧ i.operand = .accumulator) ∧
      (t.x ≠ s.x → i.mnemonic ∈ [Mnemonic.ldx, .tax, .tsx, .inx, .dex]) ∧
      (t.y ≠ s.y → i.mnemonic ∈ [Mnemonic.ldy, .tay, .iny, .dey]) ∧
      (t.sp ≠ s.sp → i.mnemonic ∈ [Mnemonic.txs, .jsr, .rts, .pha, .pla, .php, .plp, .rti, .brk]) ∧
      (t.pc ≠ s.pc →
        i.mnemonic ∈ [Mnemonic.beq, .bne, .bcc, .bcs, .bmi, .bpl, .bvc, .bvs, .jmp, .jsr, .rts, .rti, .brk]) ∧
      ((∃ addr, t.read addr ≠ s.read addr) →
        i.mnemonic ∈ [Mnemonic.sta, .stx, .sty, .inc, .dec, .jsr, .pha, .php, .brk] ∨
          i.mnemonic ∈ [Mnemonic.asl, .lsr, .rol, .ror] ∧ i.operand ≠ .accumulator) ∧
      t.nmiPending = s.nmiPending ∧ t.irqPending = s.irqPending

/-- For every instruction and state: N, V, D, I, Z or C differs in the next state only if the instruction is one the table of R26 gives as its writer (only ADC, SBC, BIT, CLV, PLP and RTI write V, R131), and B never differs (R19). -/
def Obligations.FlagsHaveTheirWriters : Prop :=
  ∀ (i : Instr) (s t : State), exec i s = .next t →
    ((t.flags.n ≠ s.flags.n ∨ t.flags.z ≠ s.flags.z) →
        i.mnemonic ∈
          [Mnemonic.lda, .ldx, .ldy, .tax, .txa, .tay, .tya, .tsx, .txs, .adc, .sbc, .and, .ora, .eor, .cmp, .cpx,
            .cpy, .bit, .asl, .lsr, .rol, .ror, .inc, .dec, .inx, .iny, .dex, .dey, .pla, .plp, .rti]) ∧
      (t.flags.v ≠ s.flags.v → i.mnemonic ∈ [Mnemonic.adc, .sbc, .bit, .clv, .plp, .rti]) ∧
      (t.flags.d ≠ s.flags.d → i.mnemonic ∈ [Mnemonic.cld, .sed, .plp, .rti]) ∧
      (t.flags.i ≠ s.flags.i → i.mnemonic ∈ [Mnemonic.cli, .sei, .plp, .rti, .brk]) ∧
      (t.flags.c ≠ s.flags.c →
        i.mnemonic ∈
          [Mnemonic.adc, .sbc, .cmp, .cpx, .cpy, .asl, .lsr, .rol, .ror, .clc, .sec, .plp, .rti]) ∧
      t.flags.b = s.flags.b

/-- For every instruction that is no branch and every state: the class table of R236 gives a number, with the page-cross extra only for reads in AbsoluteX, AbsoluteY and IndirectY, and the instruction's number is that one; a step that executes an instruction, branches included, returns that instruction's number in the state after its fetch; an interrupt entry returns 7; a reset counts 7 (R231, R235, R236; the numbers are the spec's general knowledge, log 14). -/
def Obligations.CyclesFollowTheClassTable : Prop :=
  (∀ (i : Instr) (s : State), i.operand.mode ≠ .relative →
      classCycles i (s.resolve i.operand).2 = some (instrCycles i s)) ∧
    (∀ (s : State) (i : Instr), NoService s → s.fetch = .ok i [] →
      transactionCycles s .step = some (instrCycles i s.fetched) ∧
        report s .step = .cycles (instrCycles i s.fetched)) ∧
    (∀ s : State, ¬NoService s → transactionCycles s .step = some 7 ∧ report s .step = .cycles 7) ∧
    ∀ s : State, transactionCycles s .reset = some 7

/-- From every state: a step that services an NMI, or an unmasked IRQ with no NMI pending, makes exactly these bus accesses in order: the writes of PC high, PC low and the status byte with bit 4 = 0 at the slots of SP, SP - 1 and SP - 2, then the reads of the vector at 0xFFFA or 0xFFFE, low byte first; the instruction at PC is not fetched (R49, R207; log 19). -/
def Obligations.InterruptEntriesOnTheBus : Prop :=
  ∀ s : State,
    (s.nmiPending = true →
        stepAccesses s =
          (entryCells s s.pc false).map (fun cell => .write cell.1 cell.2) ++
            [.read 0xFFFA (s.read 0xFFFA), .read 0xFFFB (s.read 0xFFFB)]) ∧
      (s.nmiPending = false → s.irqPending = true → s.flags.i = false →
        stepAccesses s =
          (entryCells s s.pc false).map (fun cell => .write cell.1 cell.2) ++
            [.read 0xFFFE (s.read 0xFFFE), .read 0xFFFF (s.read 0xFFFF)])

/-- For every state, stop address and number of steps: a run is a walk of n steps, n at most that number, none of them called at the stop address, to a state u; it ends either because u is at the stop address; or, with a step left, because the step at u raises IllegalOpcode, and then with u's PC + 1; or with all steps used and u not at the stop address; it ends in no other way. A launch starts from power_on() on its memory, with PC at its entry point or, where it gives none, at the word of the reset vector (R233, R237; which end a model takes R237 leaves to it: log 21). -/
def Obligations.RunsEndAsTheLaunchSays : Prop :=
  (∀ (s : State) (stopAt : Option Word) (budget : Nat), ∃ (n : Nat) (u : State), n ≤ budget ∧ Walk stopAt n s u ∧
      match s.run stopAt budget with
      | (t, .reached) => some u.pc = stopAt ∧ t = u
      | (t, .illegalOpcode op pc) =>
        n < budget ∧ some u.pc ≠ stopAt ∧ step u = .fault (.illegalOpcode op pc) ∧ t = { u with pc := u.pc + 1 }
      | (t, .outOfSteps) => n = budget ∧ some u.pc ≠ stopAt ∧ t = u
      | (_, .noMeaning) => False) ∧
    ∀ l : Launch, l.run = l.start.run l.stopAt l.budget ∧
      l.start = { State.powerOn l.mem with
        pc := l.entry.getD (mkWord (l.mem.read 0xFFFD) (l.mem.read 0xFFFC)) }
end

