-- ==== Sys2Proof/Laws/Flags.lean ====
section
/-! SUPPORT. The status byte and the flag computations, one fact per flag. -/

namespace Sys2Proof.Machine

@[simp] theorem Flags.setZN_n (v : Byte) (f : Flags) : (f.setZN v).n = v.getLsbD 7 := rfl
@[simp] theorem Flags.setZN_v (v : Byte) (f : Flags) : (f.setZN v).v = f.v := rfl
@[simp] theorem Flags.setZN_b (v : Byte) (f : Flags) : (f.setZN v).b = f.b := rfl
@[simp] theorem Flags.setZN_d (v : Byte) (f : Flags) : (f.setZN v).d = f.d := rfl
@[simp] theorem Flags.setZN_i (v : Byte) (f : Flags) : (f.setZN v).i = f.i := rfl
@[simp] theorem Flags.setZN_z (v : Byte) (f : Flags) : (f.setZN v).z = (v == 0) := rfl
@[simp] theorem Flags.setZN_c (v : Byte) (f : Flags) : (f.setZN v).c = f.c := rfl

@[simp] theorem Flags.fromByte_n (v : Byte) (f : Flags) : (f.fromByte v).n = v.getLsbD 7 := rfl
@[simp] theorem Flags.fromByte_v (v : Byte) (f : Flags) : (f.fromByte v).v = v.getLsbD 6 := rfl
@[simp] theorem Flags.fromByte_b (v : Byte) (f : Flags) : (f.fromByte v).b = f.b := rfl
@[simp] theorem Flags.fromByte_d (v : Byte) (f : Flags) : (f.fromByte v).d = v.getLsbD 3 := rfl
@[simp] theorem Flags.fromByte_i (v : Byte) (f : Flags) : (f.fromByte v).i = v.getLsbD 2 := rfl
@[simp] theorem Flags.fromByte_z (v : Byte) (f : Flags) : (f.fromByte v).z = v.getLsbD 1 := rfl
@[simp] theorem Flags.fromByte_c (v : Byte) (f : Flags) : (f.fromByte v).c = v.getLsbD 0 := rfl

/-- The eight bits of the status byte (R16, R17). -/
theorem Flags.getLsbD_toByte (f : Flags) (b4 : Bool) :
    (f.toByte b4).getLsbD 7 = f.n ∧ (f.toByte b4).getLsbD 6 = f.v ∧ (f.toByte b4).getLsbD 5 = true ∧
      (f.toByte b4).getLsbD 4 = b4 ∧ (f.toByte b4).getLsbD 3 = f.d ∧ (f.toByte b4).getLsbD 2 = f.i ∧
        (f.toByte b4).getLsbD 1 = f.z ∧ (f.toByte b4).getLsbD 0 = f.c := by
  obtain ⟨n, v, b, d, i, z, c⟩ := f
  revert n v d i z c b4
  simp only [Flags.toByte]
  decide

/-! The same bits, one by one, in the form `simp` gives them. -/

variable (f : Flags) (b4 : Bool)

@[simp] theorem Flags.toByte_get7 : (f.toByte b4)[7] = f.n := (f.getLsbD_toByte b4).1
@[simp] theorem Flags.toByte_get6 : (f.toByte b4)[6] = f.v := (f.getLsbD_toByte b4).2.1
@[simp] theorem Flags.toByte_get5 : (f.toByte b4)[5] = true := (f.getLsbD_toByte b4).2.2.1
@[simp] theorem Flags.toByte_get4 : (f.toByte b4)[4] = b4 := (f.getLsbD_toByte b4).2.2.2.1
@[simp] theorem Flags.toByte_get3 : (f.toByte b4)[3] = f.d := (f.getLsbD_toByte b4).2.2.2.2.1
@[simp] theorem Flags.toByte_get2 : (f.toByte b4)[2] = f.i := (f.getLsbD_toByte b4).2.2.2.2.2.1
@[simp] theorem Flags.toByte_get1 : (f.toByte b4)[1] = f.z := (f.getLsbD_toByte b4).2.2.2.2.2.2.1
@[simp] theorem Flags.toByte_get0 : (f.toByte b4)[0] = f.c := (f.getLsbD_toByte b4).2.2.2.2.2.2.2

end Sys2Proof.Machine
end

