-- ==== Sys2Proof/Laws/Alu.lean ====
section
/-! SUPPORT. Which flags each ALU operation leaves alone, and the updates built on them field by field. -/

namespace Sys2Proof.Machine

variable (a m v r : Byte) (f : Flags)

/-! The flags no ALU operation writes (R120 to R146). -/

@[simp] theorem addWithCarry_b : (addWithCarry a m f).2.b = f.b := rfl
@[simp] theorem addWithCarry_d : (addWithCarry a m f).2.d = f.d := rfl
@[simp] theorem addWithCarry_i : (addWithCarry a m f).2.i = f.i := rfl

@[simp] theorem subWithBorrow_b : (subWithBorrow a m f).2.b = f.b := rfl
@[simp] theorem subWithBorrow_d : (subWithBorrow a m f).2.d = f.d := rfl
@[simp] theorem subWithBorrow_i : (subWithBorrow a m f).2.i = f.i := rfl

@[simp] theorem compareFlags_b : (compareFlags r m f).b = f.b := rfl
@[simp] theorem compareFlags_d : (compareFlags r m f).d = f.d := rfl
@[simp] theorem compareFlags_i : (compareFlags r m f).i = f.i := rfl
@[simp] theorem compareFlags_v : (compareFlags r m f).v = f.v := rfl

@[simp] theorem bitTestFlags_b : (bitTestFlags a m f).b = f.b := rfl
@[simp] theorem bitTestFlags_d : (bitTestFlags a m f).d = f.d := rfl
@[simp] theorem bitTestFlags_i : (bitTestFlags a m f).i = f.i := rfl
@[simp] theorem bitTestFlags_c : (bitTestFlags a m f).c = f.c := rfl

@[simp] theorem shiftLeft_b : (shiftLeft v f).2.b = f.b := rfl
@[simp] theorem shiftLeft_d : (shiftLeft v f).2.d = f.d := rfl
@[simp] theorem shiftLeft_i : (shiftLeft v f).2.i = f.i := rfl
@[simp] theorem shiftLeft_v : (shiftLeft v f).2.v = f.v := rfl

@[simp] theorem shiftRight_b : (shiftRight v f).2.b = f.b := rfl
@[simp] theorem shiftRight_d : (shiftRight v f).2.d = f.d := rfl
@[simp] theorem shiftRight_i : (shiftRight v f).2.i = f.i := rfl
@[simp] theorem shiftRight_v : (shiftRight v f).2.v = f.v := rfl

@[simp] theorem rotateLeft_b : (rotateLeft v f).2.b = f.b := rfl
@[simp] theorem rotateLeft_d : (rotateLeft v f).2.d = f.d := rfl
@[simp] theorem rotateLeft_i : (rotateLeft v f).2.i = f.i := rfl
@[simp] theorem rotateLeft_v : (rotateLeft v f).2.v = f.v := rfl

@[simp] theorem rotateRight_b : (rotateRight v f).2.b = f.b := rfl
@[simp] theorem rotateRight_d : (rotateRight v f).2.d = f.d := rfl
@[simp] theorem rotateRight_i : (rotateRight v f).2.i = f.i := rfl
@[simp] theorem rotateRight_v : (rotateRight v f).2.v = f.v := rfl

@[simp] theorem increment_b : (increment v f).2.b = f.b := rfl
@[simp] theorem increment_d : (increment v f).2.d = f.d := rfl
@[simp] theorem increment_i : (increment v f).2.i = f.i := rfl
@[simp] theorem increment_v : (increment v f).2.v = f.v := rfl
@[simp] theorem increment_c : (increment v f).2.c = f.c := rfl

@[simp] theorem decrement_b : (decrement v f).2.b = f.b := rfl
@[simp] theorem decrement_d : (decrement v f).2.d = f.d := rfl
@[simp] theorem decrement_i : (decrement v f).2.i = f.i := rfl
@[simp] theorem decrement_v : (decrement v f).2.v = f.v := rfl
@[simp] theorem decrement_c : (decrement v f).2.c = f.c := rfl

variable (s : State)

@[simp] theorem State.adc_a : (s.adc m).a = (addWithCarry s.a m s.flags).1 := rfl
@[simp] theorem State.adc_x : (s.adc m).x = s.x := rfl
@[simp] theorem State.adc_y : (s.adc m).y = s.y := rfl
@[simp] theorem State.adc_sp : (s.adc m).sp = s.sp := rfl
@[simp] theorem State.adc_pc : (s.adc m).pc = s.pc := rfl
@[simp] theorem State.adc_flags : (s.adc m).flags = (addWithCarry s.a m s.flags).2 := rfl
@[simp] theorem State.adc_nmiPending : (s.adc m).nmiPending = s.nmiPending := rfl
@[simp] theorem State.adc_irqPending : (s.adc m).irqPending = s.irqPending := rfl
@[simp] theorem State.adc_mem : (s.adc m).mem = s.mem := rfl

@[simp] theorem State.sbc_a : (s.sbc m).a = (subWithBorrow s.a m s.flags).1 := rfl
@[simp] theorem State.sbc_x : (s.sbc m).x = s.x := rfl
@[simp] theorem State.sbc_y : (s.sbc m).y = s.y := rfl
@[simp] theorem State.sbc_sp : (s.sbc m).sp = s.sp := rfl
@[simp] theorem State.sbc_pc : (s.sbc m).pc = s.pc := rfl
@[simp] theorem State.sbc_flags : (s.sbc m).flags = (subWithBorrow s.a m s.flags).2 := rfl
@[simp] theorem State.sbc_nmiPending : (s.sbc m).nmiPending = s.nmiPending := rfl
@[simp] theorem State.sbc_irqPending : (s.sbc m).irqPending = s.irqPending := rfl
@[simp] theorem State.sbc_mem : (s.sbc m).mem = s.mem := rfl

@[simp] theorem State.compare_a : (s.compare r m).a = s.a := rfl
@[simp] theorem State.compare_x : (s.compare r m).x = s.x := rfl
@[simp] theorem State.compare_y : (s.compare r m).y = s.y := rfl
@[simp] theorem State.compare_sp : (s.compare r m).sp = s.sp := rfl
@[simp] theorem State.compare_pc : (s.compare r m).pc = s.pc := rfl
@[simp] theorem State.compare_flags : (s.compare r m).flags = compareFlags r m s.flags := rfl
@[simp] theorem State.compare_nmiPending : (s.compare r m).nmiPending = s.nmiPending := rfl
@[simp] theorem State.compare_irqPending : (s.compare r m).irqPending = s.irqPending := rfl
@[simp] theorem State.compare_mem : (s.compare r m).mem = s.mem := rfl

@[simp] theorem State.bitTest_a : (s.bitTest m).a = s.a := rfl
@[simp] theorem State.bitTest_x : (s.bitTest m).x = s.x := rfl
@[simp] theorem State.bitTest_y : (s.bitTest m).y = s.y := rfl
@[simp] theorem State.bitTest_sp : (s.bitTest m).sp = s.sp := rfl
@[simp] theorem State.bitTest_pc : (s.bitTest m).pc = s.pc := rfl
@[simp] theorem State.bitTest_flags : (s.bitTest m).flags = bitTestFlags s.a m s.flags := rfl
@[simp] theorem State.bitTest_nmiPending : (s.bitTest m).nmiPending = s.nmiPending := rfl
@[simp] theorem State.bitTest_irqPending : (s.bitTest m).irqPending = s.irqPending := rfl
@[simp] theorem State.bitTest_mem : (s.bitTest m).mem = s.mem := rfl

end Sys2Proof.Machine
end

