-- ==== Sys2Proof/Laws/Bits.lean ====
section
/-! SUPPORT. A word and its two bytes. -/

namespace Sys2Proof

/-- Bit `k` of `{hi, lo}` (R8). -/
theorem getLsbD_mkWord (hi lo : Byte) (k : Nat) :
    (mkWord hi lo).getLsbD k = if k < 8 then lo.getLsbD k else hi.getLsbD (k - 8) := by
  have h := BitVec.getLsbD_append (x := hi) (y := lo) (i := k)
  refine Eq.trans h ?_
  cases Nat.decLt k 8 <;> simp [*]

@[simp] theorem loByte_mkWord (hi lo : Byte) : loByte (mkWord hi lo) = lo := by
  ext k hk
  simp [loByte, BitVec.getElem_extractLsb', getLsbD_mkWord, hk]

@[simp] theorem hiByte_mkWord (hi lo : Byte) : hiByte (mkWord hi lo) = hi := by
  ext k hk
  simp [hiByte, BitVec.getElem_extractLsb', getLsbD_mkWord, hk]

@[simp] theorem mkWord_hiByte_loByte (w : Word) : mkWord (hiByte w) (loByte w) = w := by
  apply BitVec.eq_of_getLsbD_eq
  intro k hk
  rw [getLsbD_mkWord]
  split
  · next h => simp [loByte, h]
  · next h =>
    have h1 : k - 8 < 8 := by omega
    have h2 : 8 + (k - 8) = k := by omega
    simp [hiByte, h1, h2]

theorem mkWord_inj {h l h' l' : Byte} : mkWord h l = mkWord h' l' ↔ h = h' ∧ l = l' := by
  constructor
  · intro e
    exact ⟨by simpa using congrArg hiByte e, by simpa using congrArg loByte e⟩
  · rintro ⟨rfl, rfl⟩; rfl

@[simp] theorem toNat_mkWord (hi lo : Byte) : (mkWord hi lo).toNat = hi.toNat * 256 + lo.toNat := by
  have := lo.isLt
  simp only [mkWord, BitVec.toNat_append]
  rw [← Nat.shiftLeft_add_eq_or_of_lt this, Nat.shiftLeft_eq]

@[simp] theorem toNat_zext16 (b : Byte) : (zext16 b).toNat = b.toNat := by
  have := b.isLt
  simp only [zext16, BitVec.toNat_setWidth]
  omega

end Sys2Proof
end

