-- ==== Sys2Proof/Laws/Decode.lean ====
section
/-! SUPPORT. The opcode table has one row per opcode, and decoding starts with a lookup in it. -/

namespace Sys2Proof

/-- No two entries share an opcode (R53). -/
theorem opcodeTable_nodup : (opcodeTable.map Entry.opcode).Nodup := by decide +kernel

/-- The table has the 151 rows of R54. -/
theorem opcodeTable_length : opcodeTable.length = 151 := by decide +kernel

theorem decode_cons (op : Byte) (rest : List Byte) :
    decode (op :: rest) = match findEntry op with
      | none => .illegalOpcode op
      | some e => e.field.parse rest := rfl

/-- The signed offset of a branch survives its byte (R52). -/
theorem toInt_ofInt8 {r : Int} (h : -128 ≤ r) (h' : r ≤ 127) : (BitVec.ofInt 8 r).toInt = r := by
  rw [BitVec.toInt_ofInt]
  simp only [Int.bmod]
  omega

/-- The bytes a field parses from are those it has the length of: with no more bytes than that, nothing is left. -/
theorem OperandField.parse_rest {f : OperandField} {bytes rest : List Byte} {i : Instr}
    (h : f.parse bytes = .ok i rest) : bytes.length = f.length + rest.length := by
  match f, bytes with
  | .none _, _ => simp only [OperandField.parse, Decoded.ok.injEq] at h; simp [OperandField.length, h.2]
  | .byte _, b :: _ => simp only [OperandField.parse, Decoded.ok.injEq] at h; simp [OperandField.length, h.2]; omega
  | .rel _, b :: _ => simp only [OperandField.parse, Decoded.ok.injEq] at h; simp [OperandField.length, h.2]; omega
  | .word _, lo :: hi :: _ =>
    simp only [OperandField.parse, Decoded.ok.injEq] at h; simp [OperandField.length, h.2]; omega
  | .byte _, [] | .rel _, [] | .word _, [] | .word _, [_] => simp [OperandField.parse] at h

/-- A field parses every list that is long enough (R50). -/
theorem OperandField.parse_isOk (f : OperandField) (bytes : List Byte) (h : f.length ≤ bytes.length) :
    ∃ i rest, f.parse bytes = .ok i rest := by
  match f, bytes with
  | .none _, _ => exact ⟨_, _, rfl⟩
  | .byte _, b :: _ => exact ⟨_, _, rfl⟩
  | .rel _, b :: _ => exact ⟨_, _, rfl⟩
  | .word _, lo :: hi :: _ => exact ⟨_, _, rfl⟩
  | .byte _, [] | .rel _, [] | .word _, [] | .word _, [_] => simp [OperandField.length] at h

/-- An entry makes instructions of its own opcode, with exactly the operand bytes it was given, and well-formed ones
where the operand field admits every value (R53, R59). -/
def Entry.Sound (e : Entry) : Prop :=
  match e.field with
  | .none i => i.opcode = e.opcode ∧ i.operand.bytes = [] ∧ i.wellFormed = true
  | .byte make => ∀ b, (make b).opcode = e.opcode ∧ (make b).operand.bytes = [b] ∧ (make b).wellFormed = true
  | .rel make => ∀ r, (make r).opcode = e.opcode ∧ (make r).operand = .relative r
  | .word make =>
    ∀ w, (make w).opcode = e.opcode ∧ (make w).operand.bytes = [loByte w, hiByte w] ∧ (make w).wellFormed = true

/-- Every entry of the table is sound. -/
theorem opcodeTable_sound : ∀ e ∈ opcodeTable, e.Sound := by
  simp only [opcodeTable, loadStoreEntries, arithmeticEntries, shiftEntries, branchEntries, systemEntries,
    List.forall_mem_append, List.forall_mem_cons]
  simp only [Entry.Sound]
  repeat' apply And.intro
  all_goals first
    | rfl
    | exact fun _ => ⟨rfl, rfl, rfl⟩
    | exact fun _ => ⟨rfl, rfl⟩
    | exact fun _ h => absurd h List.not_mem_nil

/-- The entry a lookup finds stands in the table and has the opcode looked up (R53). -/
theorem findEntry_some {op : Byte} {e : Entry} (h : findEntry op = some e) : e.Sound ∧ e.opcode = op :=
  ⟨opcodeTable_sound e (List.mem_of_find?_eq_some h), by simpa using List.find?_some h⟩

end Sys2Proof
end

