-- ==== Sys2Proof/Laws/Memory.lean ====
section
/-! SUPPORT. The laws of memory: a read after a write, the canonical form kept by every operation, and what
a lookup finds at and before the head of the list. -/

namespace Sys2Proof.Machine

theorem Memory.lookup_insert_same (m : Memory) (a : Nat) (v : Byte) (h : ∀ cell ∈ m, cell.1 ≠ a) :
    (m.insert a v).lookup a = v := by
  induction m with
  | nil => simp [Memory.insert, Memory.lookup]
  | cons cell rest ih =>
    obtain ⟨k, w⟩ := cell
    have hk : k ≠ a := h (k, w) (by simp)
    simp only [Memory.insert]
    split
    · simp [Memory.lookup]
    · simp [Memory.lookup, hk, ih fun c hc => h c (by simp [hc])]

theorem Memory.lookup_insert_other (m : Memory) (a b : Nat) (v : Byte) (h : b ≠ a) :
    (m.insert a v).lookup b = m.lookup b := by
  induction m with
  | nil => simp [Memory.insert, Memory.lookup, Ne.symm h]
  | cons cell rest ih =>
    obtain ⟨k, w⟩ := cell
    simp only [Memory.insert]
    split
    · simp [Memory.lookup, Ne.symm h]
    · simp [Memory.lookup, ih]

theorem Memory.lookup_erase_same (m : Memory) (a : Nat) : (m.erase a).lookup a = Memory.unlisted := by
  induction m with
  | nil => rfl
  | cons cell rest ih =>
    obtain ⟨k, w⟩ := cell
    simp only [Memory.erase] at ih ⊢
    by_cases hk : k = a
    · simp [hk, ih]
    · simp [hk, Memory.lookup, ih]

theorem Memory.lookup_erase_other (m : Memory) (a b : Nat) (h : b ≠ a) : (m.erase a).lookup b = m.lookup b := by
  induction m with
  | nil => rfl
  | cons cell rest ih =>
    obtain ⟨k, w⟩ := cell
    simp only [Memory.erase] at ih ⊢
    by_cases hk : k = a
    · subst hk; simp [Memory.lookup, ih, Ne.symm h]
    · simp [hk, Memory.lookup, ih]

/-- A read after a write to the same address gives the value written. -/
@[simp] theorem Memory.read_write_same (m : Memory) (addr : Word) (v : Byte) : (m.write addr v).read addr = v := by
  unfold Memory.write Memory.read
  split
  · next h => rw [Memory.lookup_erase_same, h]
  · exact Memory.lookup_insert_same _ _ _ (by simp [Memory.erase])

/-- A write leaves every other address alone. -/
theorem Memory.read_write_other (m : Memory) {addr other : Word} (v : Byte) (h : other ≠ addr) :
    (m.write addr v).read other = m.read other := by
  have hn : other.toNat ≠ addr.toNat := fun e => h (BitVec.eq_of_toNat_eq e)
  unfold Memory.write Memory.read
  split
  · exact Memory.lookup_erase_other _ _ _ hn
  · rw [Memory.lookup_insert_other _ _ _ _ hn, Memory.lookup_erase_other _ _ _ hn]

/-- What a read of a written memory gives, at any address. -/
theorem Memory.read_write (m : Memory) (addr other : Word) (v : Byte) :
    (m.write addr v).read other = if other = addr then v else m.read other := by
  split
  · next h => rw [h, Memory.read_write_same]
  · next h => exact Memory.read_write_other m v h

@[simp] theorem Memory.read_nil (addr : Word) : Memory.read [] addr = Memory.unlisted := rfl

theorem Memory.wf_erase {m : Memory} (a : Nat) (h : m.wf) : (m.erase a).wf :=
  ⟨h.1.filter _, fun cell hc => h.2 cell (List.mem_of_mem_filter hc)⟩

theorem Memory.mem_insert {m : Memory} {a : Nat} {v : Byte} {cell : Host.Cell} (h : cell ∈ m.insert a v) :
    cell = (a, v) ∨ cell ∈ m := by
  induction m with
  | nil => simpa [Memory.insert] using h
  | cons c rest ih =>
    obtain ⟨k, w⟩ := c
    simp only [Memory.insert] at h
    split at h
    · simpa using h
    · rcases List.mem_cons.1 h with rfl | h
      · simp
      · rcases ih h with h | h <;> simp [h]

theorem Memory.wf_insert {m : Memory} {a : Nat} {v : Byte} (h : m.wf) (ha : a < 65536) (hv : v ≠ Memory.unlisted)
    (hn : ∀ cell ∈ m, cell.1 ≠ a) : (m.insert a v).wf := by
  refine ⟨?_, fun cell hc => ?_⟩
  · induction m with
    | nil => simp [Memory.insert]
    | cons c rest ih =>
      obtain ⟨k, w⟩ := c
      obtain ⟨hp, hb⟩ := h
      have hcons := List.pairwise_cons.1 hp
      have hk : k ≠ a := hn (k, w) (by simp)
      simp only [Memory.insert]
      split
      · next hlt =>
        refine List.pairwise_cons.2 ⟨fun cell hc => ?_, hp⟩
        rcases List.mem_cons.1 hc with rfl | hc
        · exact hlt
        · exact Nat.lt_trans hlt (hcons.1 cell hc)
      · next hge =>
        have hrest : Memory.wf rest := ⟨hcons.2, fun c hc => hb c (by simp [hc])⟩
        refine List.pairwise_cons.2 ⟨fun cell hc => ?_, ih hrest fun c hc => hn c (by simp [hc])⟩
        rcases Memory.mem_insert hc with rfl | hc
        · simp only; omega
        · exact hcons.1 cell hc
  · rcases Memory.mem_insert hc with rfl | hc
    · exact ⟨ha, hv⟩
    · exact h.2 cell hc

/-- Every write keeps the canonical form. -/
theorem Memory.wf_write {m : Memory} (addr : Word) (v : Byte) (h : m.wf) : (m.write addr v).wf := by
  unfold Memory.write
  split
  · exact Memory.wf_erase _ h
  · next hv =>
    exact Memory.wf_insert (Memory.wf_erase _ h) addr.isLt hv (by simp [Memory.erase])

/-- The empty memory, which reset has, is in canonical form. -/
theorem Memory.wf_nil : Memory.wf [] := ⟨List.Pairwise.nil, by simp⟩

theorem Memory.lookup_of_lt {m : Memory} {a : Nat} (h : ∀ cell ∈ m, a < cell.1) :
    m.lookup a = Memory.unlisted := by
  induction m with
  | nil => rfl
  | cons c rest ih =>
    obtain ⟨k, w⟩ := c
    have : a < k := h (k, w) (by simp)
    simp [Memory.lookup, Nat.ne_of_gt this, ih fun c hc => h c (by simp [hc])]

theorem Memory.wf_tail {c : Host.Cell} {rest : Memory} (h : Memory.wf (c :: rest)) : Memory.wf rest :=
  ⟨(List.pairwise_cons.1 h.1).2, fun d hd => h.2 d (by simp [hd])⟩

theorem Memory.lookup_head {k : Nat} {w : Byte} {rest : Memory} : Memory.lookup ((k, w) :: rest) k = w := by
  simp [Memory.lookup]

end Sys2Proof.Machine
end

