-- ==== Sys2Proof/Laws/State.lean ====
section
/-! SUPPORT. One lemma per field per named update of the state, so that no proof unfolds a record update. -/

namespace Sys2Proof.Machine

variable (s : State)

@[simp] theorem State.write_a (addr : Word) (v : Byte) : (s.write addr v).a = s.a := rfl
@[simp] theorem State.write_x (addr : Word) (v : Byte) : (s.write addr v).x = s.x := rfl
@[simp] theorem State.write_y (addr : Word) (v : Byte) : (s.write addr v).y = s.y := rfl
@[simp] theorem State.write_sp (addr : Word) (v : Byte) : (s.write addr v).sp = s.sp := rfl
@[simp] theorem State.write_pc (addr : Word) (v : Byte) : (s.write addr v).pc = s.pc := rfl
@[simp] theorem State.write_flags (addr : Word) (v : Byte) : (s.write addr v).flags = s.flags := rfl
@[simp] theorem State.write_nmiPending (addr : Word) (v : Byte) : (s.write addr v).nmiPending = s.nmiPending := rfl
@[simp] theorem State.write_irqPending (addr : Word) (v : Byte) : (s.write addr v).irqPending = s.irqPending := rfl
@[simp] theorem State.write_mem (addr : Word) (v : Byte) : (s.write addr v).mem = s.mem.write addr v := rfl

@[simp] theorem State.push_a (v : Byte) : (s.push v).a = s.a := rfl
@[simp] theorem State.push_x (v : Byte) : (s.push v).x = s.x := rfl
@[simp] theorem State.push_y (v : Byte) : (s.push v).y = s.y := rfl
@[simp] theorem State.push_sp (v : Byte) : (s.push v).sp = s.sp - 1 := rfl
@[simp] theorem State.push_pc (v : Byte) : (s.push v).pc = s.pc := rfl
@[simp] theorem State.push_flags (v : Byte) : (s.push v).flags = s.flags := rfl
@[simp] theorem State.push_nmiPending (v : Byte) : (s.push v).nmiPending = s.nmiPending := rfl
@[simp] theorem State.push_irqPending (v : Byte) : (s.push v).irqPending = s.irqPending := rfl
@[simp] theorem State.push_mem (v : Byte) : (s.push v).mem = s.mem.write (stackSlot s.sp) v := rfl

@[simp] theorem State.pop_a : (s.pop).a = s.a := rfl
@[simp] theorem State.pop_x : (s.pop).x = s.x := rfl
@[simp] theorem State.pop_y : (s.pop).y = s.y := rfl
@[simp] theorem State.pop_sp : (s.pop).sp = s.sp + 1 := rfl
@[simp] theorem State.pop_pc : (s.pop).pc = s.pc := rfl
@[simp] theorem State.pop_flags : (s.pop).flags = s.flags := rfl
@[simp] theorem State.pop_nmiPending : (s.pop).nmiPending = s.nmiPending := rfl
@[simp] theorem State.pop_irqPending : (s.pop).irqPending = s.irqPending := rfl
@[simp] theorem State.pop_mem : (s.pop).mem = s.mem := rfl

@[simp] theorem State.pushWord_a (w : Word) : (s.pushWord w).a = s.a := rfl
@[simp] theorem State.pushWord_x (w : Word) : (s.pushWord w).x = s.x := rfl
@[simp] theorem State.pushWord_y (w : Word) : (s.pushWord w).y = s.y := rfl
@[simp] theorem State.pushWord_sp (w : Word) : (s.pushWord w).sp = s.sp - 1 - 1 := rfl
@[simp] theorem State.pushWord_pc (w : Word) : (s.pushWord w).pc = s.pc := rfl
@[simp] theorem State.pushWord_flags (w : Word) : (s.pushWord w).flags = s.flags := rfl
@[simp] theorem State.pushWord_nmiPending (w : Word) : (s.pushWord w).nmiPending = s.nmiPending := rfl
@[simp] theorem State.pushWord_irqPending (w : Word) : (s.pushWord w).irqPending = s.irqPending := rfl
@[simp] theorem State.pushWord_mem (w : Word) : (s.pushWord w).mem = (s.mem.write (stackSlot s.sp) (hiByte w)).write (stackSlot (s.sp - 1)) (loByte w) := rfl

@[simp] theorem State.popWord_a : (s.popWord).a = s.a := rfl
@[simp] theorem State.popWord_x : (s.popWord).x = s.x := rfl
@[simp] theorem State.popWord_y : (s.popWord).y = s.y := rfl
@[simp] theorem State.popWord_sp : (s.popWord).sp = s.sp + 1 + 1 := rfl
@[simp] theorem State.popWord_pc : (s.popWord).pc = s.pc := rfl
@[simp] theorem State.popWord_flags : (s.popWord).flags = s.flags := rfl
@[simp] theorem State.popWord_nmiPending : (s.popWord).nmiPending = s.nmiPending := rfl
@[simp] theorem State.popWord_irqPending : (s.popWord).irqPending = s.irqPending := rfl
@[simp] theorem State.popWord_mem : (s.popWord).mem = s.mem := rfl

@[simp] theorem State.loadA_a (v : Byte) : (s.loadA v).a = v := rfl
@[simp] theorem State.loadA_x (v : Byte) : (s.loadA v).x = s.x := rfl
@[simp] theorem State.loadA_y (v : Byte) : (s.loadA v).y = s.y := rfl
@[simp] theorem State.loadA_sp (v : Byte) : (s.loadA v).sp = s.sp := rfl
@[simp] theorem State.loadA_pc (v : Byte) : (s.loadA v).pc = s.pc := rfl
@[simp] theorem State.loadA_flags (v : Byte) : (s.loadA v).flags = s.flags.setZN v := rfl
@[simp] theorem State.loadA_nmiPending (v : Byte) : (s.loadA v).nmiPending = s.nmiPending := rfl
@[simp] theorem State.loadA_irqPending (v : Byte) : (s.loadA v).irqPending = s.irqPending := rfl
@[simp] theorem State.loadA_mem (v : Byte) : (s.loadA v).mem = s.mem := rfl

@[simp] theorem State.loadX_a (v : Byte) : (s.loadX v).a = s.a := rfl
@[simp] theorem State.loadX_x (v : Byte) : (s.loadX v).x = v := rfl
@[simp] theorem State.loadX_y (v : Byte) : (s.loadX v).y = s.y := rfl
@[simp] theorem State.loadX_sp (v : Byte) : (s.loadX v).sp = s.sp := rfl
@[simp] theorem State.loadX_pc (v : Byte) : (s.loadX v).pc = s.pc := rfl
@[simp] theorem State.loadX_flags (v : Byte) : (s.loadX v).flags = s.flags.setZN v := rfl
@[simp] theorem State.loadX_nmiPending (v : Byte) : (s.loadX v).nmiPending = s.nmiPending := rfl
@[simp] theorem State.loadX_irqPending (v : Byte) : (s.loadX v).irqPending = s.irqPending := rfl
@[simp] theorem State.loadX_mem (v : Byte) : (s.loadX v).mem = s.mem := rfl

@[simp] theorem State.loadY_a (v : Byte) : (s.loadY v).a = s.a := rfl
@[simp] theorem State.loadY_x (v : Byte) : (s.loadY v).x = s.x := rfl
@[simp] theorem State.loadY_y (v : Byte) : (s.loadY v).y = v := rfl
@[simp] theorem State.loadY_sp (v : Byte) : (s.loadY v).sp = s.sp := rfl
@[simp] theorem State.loadY_pc (v : Byte) : (s.loadY v).pc = s.pc := rfl
@[simp] theorem State.loadY_flags (v : Byte) : (s.loadY v).flags = s.flags.setZN v := rfl
@[simp] theorem State.loadY_nmiPending (v : Byte) : (s.loadY v).nmiPending = s.nmiPending := rfl
@[simp] theorem State.loadY_irqPending (v : Byte) : (s.loadY v).irqPending = s.irqPending := rfl
@[simp] theorem State.loadY_mem (v : Byte) : (s.loadY v).mem = s.mem := rfl

@[simp] theorem State.interruptReturn_a : (s.interruptReturn).a = s.a := rfl
@[simp] theorem State.interruptReturn_x : (s.interruptReturn).x = s.x := rfl
@[simp] theorem State.interruptReturn_y : (s.interruptReturn).y = s.y := rfl
@[simp] theorem State.interruptReturn_sp : (s.interruptReturn).sp = s.sp + 1 + 1 + 1 := rfl
@[simp] theorem State.interruptReturn_pc : (s.interruptReturn).pc = s.pop.topWord := rfl
@[simp] theorem State.interruptReturn_flags : (s.interruptReturn).flags = s.flags.fromByte s.top := rfl
@[simp] theorem State.interruptReturn_nmiPending : (s.interruptReturn).nmiPending = s.nmiPending := rfl
@[simp] theorem State.interruptReturn_irqPending : (s.interruptReturn).irqPending = s.irqPending := rfl
@[simp] theorem State.interruptReturn_mem : (s.interruptReturn).mem = s.mem := rfl

@[simp] theorem State.resetSequence_a : (s.resetSequence).a = s.a := rfl
@[simp] theorem State.resetSequence_x : (s.resetSequence).x = s.x := rfl
@[simp] theorem State.resetSequence_y : (s.resetSequence).y = s.y := rfl
@[simp] theorem State.resetSequence_sp : (s.resetSequence).sp = Config.spInit := rfl
@[simp] theorem State.resetSequence_pc : (s.resetSequence).pc = s.readWord resetVector := rfl
@[simp] theorem State.resetSequence_flags : (s.resetSequence).flags = { s.flags with i := true } := rfl
@[simp] theorem State.resetSequence_nmiPending : (s.resetSequence).nmiPending = s.nmiPending := rfl
@[simp] theorem State.resetSequence_irqPending : (s.resetSequence).irqPending = s.irqPending := rfl
@[simp] theorem State.resetSequence_mem : (s.resetSequence).mem = s.mem := rfl

@[simp] theorem State.interruptEntry_a (vector : Word) (b4 : Bool) : (s.interruptEntry vector b4).a = s.a := rfl
@[simp] theorem State.interruptEntry_x (vector : Word) (b4 : Bool) : (s.interruptEntry vector b4).x = s.x := rfl
@[simp] theorem State.interruptEntry_y (vector : Word) (b4 : Bool) : (s.interruptEntry vector b4).y = s.y := rfl
@[simp] theorem State.interruptEntry_sp (vector : Word) (b4 : Bool) : (s.interruptEntry vector b4).sp = s.sp - 1 - 1 - 1 := rfl
@[simp] theorem State.interruptEntry_pc (vector : Word) (b4 : Bool) : (s.interruptEntry vector b4).pc = ((s.pushWord s.pc).push (s.flags.toByte b4)).readWord vector := rfl
@[simp] theorem State.interruptEntry_flags (vector : Word) (b4 : Bool) : (s.interruptEntry vector b4).flags = { s.flags with i := true } := rfl
@[simp] theorem State.interruptEntry_nmiPending (vector : Word) (b4 : Bool) : (s.interruptEntry vector b4).nmiPending = s.nmiPending := rfl
@[simp] theorem State.interruptEntry_irqPending (vector : Word) (b4 : Bool) : (s.interruptEntry vector b4).irqPending = s.irqPending := rfl
@[simp] theorem State.interruptEntry_mem (vector : Word) (b4 : Bool) : (s.interruptEntry vector b4).mem = ((s.pushWord s.pc).push (s.flags.toByte b4)).mem := rfl

@[simp] theorem State.read_eq (addr : Word) : s.read addr = s.mem.read addr := rfl

/-- The state after reset is what `power_on(); reset()` leaves on a memory with nothing listed (R232). -/
theorem State.reset_eq_sequence : State.reset = (State.powerOn []).resetSequence := by decide

end Sys2Proof.Machine
end

