-- ==== Sys2Proof/Laws/Operands.lean ====
section
/-! SUPPORT. The operand updates field by field, and what the resolver answers for each mode. -/

namespace Sys2Proof.Machine

variable (s : State)

@[simp] theorem State.storeTo_a (m : MemOperand) (v : Byte) : (s.storeTo m v).a = s.a := rfl
@[simp] theorem State.storeTo_x (m : MemOperand) (v : Byte) : (s.storeTo m v).x = s.x := rfl
@[simp] theorem State.storeTo_y (m : MemOperand) (v : Byte) : (s.storeTo m v).y = s.y := rfl
@[simp] theorem State.storeTo_sp (m : MemOperand) (v : Byte) : (s.storeTo m v).sp = s.sp := rfl
@[simp] theorem State.storeTo_pc (m : MemOperand) (v : Byte) : (s.storeTo m v).pc = s.pc := rfl
@[simp] theorem State.storeTo_flags (m : MemOperand) (v : Byte) : (s.storeTo m v).flags = s.flags := rfl
@[simp] theorem State.storeTo_nmiPending (m : MemOperand) (v : Byte) : (s.storeTo m v).nmiPending = s.nmiPending := rfl
@[simp] theorem State.storeTo_irqPending (m : MemOperand) (v : Byte) : (s.storeTo m v).irqPending = s.irqPending := rfl
@[simp] theorem State.storeTo_mem (m : MemOperand) (v : Byte) : (s.storeTo m v).mem = s.mem.write (s.effectiveAddress m) v := rfl

@[simp] theorem State.modifyAcc_a (f : Byte → Flags → Byte × Flags) : (s.modifyAcc f).a = (f s.a s.flags).1 := rfl
@[simp] theorem State.modifyAcc_x (f : Byte → Flags → Byte × Flags) : (s.modifyAcc f).x = s.x := rfl
@[simp] theorem State.modifyAcc_y (f : Byte → Flags → Byte × Flags) : (s.modifyAcc f).y = s.y := rfl
@[simp] theorem State.modifyAcc_sp (f : Byte → Flags → Byte × Flags) : (s.modifyAcc f).sp = s.sp := rfl
@[simp] theorem State.modifyAcc_pc (f : Byte → Flags → Byte × Flags) : (s.modifyAcc f).pc = s.pc := rfl
@[simp] theorem State.modifyAcc_flags (f : Byte → Flags → Byte × Flags) : (s.modifyAcc f).flags = (f s.a s.flags).2 := rfl
@[simp] theorem State.modifyAcc_nmiPending (f : Byte → Flags → Byte × Flags) : (s.modifyAcc f).nmiPending = s.nmiPending := rfl
@[simp] theorem State.modifyAcc_irqPending (f : Byte → Flags → Byte × Flags) : (s.modifyAcc f).irqPending = s.irqPending := rfl
@[simp] theorem State.modifyAcc_mem (f : Byte → Flags → Byte × Flags) : (s.modifyAcc f).mem = s.mem := rfl

@[simp] theorem State.modifyMem_a (f : Byte → Flags → Byte × Flags) (m : MemOperand) : (s.modifyMem f m).a = s.a := rfl
@[simp] theorem State.modifyMem_x (f : Byte → Flags → Byte × Flags) (m : MemOperand) : (s.modifyMem f m).x = s.x := rfl
@[simp] theorem State.modifyMem_y (f : Byte → Flags → Byte × Flags) (m : MemOperand) : (s.modifyMem f m).y = s.y := rfl
@[simp] theorem State.modifyMem_sp (f : Byte → Flags → Byte × Flags) (m : MemOperand) : (s.modifyMem f m).sp = s.sp := rfl
@[simp] theorem State.modifyMem_pc (f : Byte → Flags → Byte × Flags) (m : MemOperand) : (s.modifyMem f m).pc = s.pc := rfl
@[simp] theorem State.modifyMem_flags (f : Byte → Flags → Byte × Flags) (m : MemOperand) : (s.modifyMem f m).flags = (f (s.loadFrom m) s.flags).2 := rfl
@[simp] theorem State.modifyMem_nmiPending (f : Byte → Flags → Byte × Flags) (m : MemOperand) : (s.modifyMem f m).nmiPending = s.nmiPending := rfl
@[simp] theorem State.modifyMem_irqPending (f : Byte → Flags → Byte × Flags) (m : MemOperand) : (s.modifyMem f m).irqPending = s.irqPending := rfl
@[simp] theorem State.modifyMem_mem (f : Byte → Flags → Byte × Flags) (m : MemOperand) : (s.modifyMem f m).mem = s.mem.write (s.effectiveAddress m) (f (s.loadFrom m) s.flags).1 := rfl

@[simp] theorem State.loadFrom_eq (m : MemOperand) : s.loadFrom m = s.mem.read (s.effectiveAddress m) := rfl

@[simp] theorem State.resolve_memory (m : MemOperand) :
    s.resolve (.memory m) = (.addr (s.effectiveAddress m), s.memoryCrossed m) := rfl

@[simp] theorem State.resolve_immediate (v : Byte) : s.resolve (.immediate v) = (.imm v, false) := rfl

@[simp] theorem State.resolve_accumulator : s.resolve .accumulator = (.acc, false) := rfl

@[simp] theorem State.resolve_implied : s.resolve .implied = (.none, false) := rfl

@[simp] theorem State.resolve_relative (r : Int) :
    s.resolve (.relative r) = (.rel (s.relativeTarget r), pagesDiffer (s.relativeTarget r) s.pc) := rfl

@[simp] theorem State.loadOperand_imm (v : Byte) : s.loadOperand (.imm v) = some v := rfl

@[simp] theorem State.loadOperand_acc : s.loadOperand .acc = some s.a := rfl

@[simp] theorem State.loadOperand_addr (addr : Word) : s.loadOperand (.addr addr) = some (s.mem.read addr) := rfl

/-- Two addresses lie in different pages exactly when their high bytes differ (R84). -/
theorem pagesDiffer_iff (a b : Word) : pagesDiffer a b = true ↔ hiByte a ≠ hiByte b := by
  simp [pagesDiffer]

/-- The effective address of every mode reads only X, Y and memory, never PC. -/
theorem State.effectiveAddress_setPc (m : MemOperand) (pc : Word) :
    State.effectiveAddress { s with pc := pc } m = s.effectiveAddress m := by
  cases m <;> rfl

end Sys2Proof.Machine
end

