-- ==== Sys2Proof/Laws/Ops.lean ====
section
/-! SUPPORT. What the stack, an interrupt entry and a return do, said once. -/

namespace Sys2Proof.Machine

theorem stackSlot_inj {p q : Byte} : stackSlot p = stackSlot q ↔ p = q := by
  simp [stackSlot, mkWord_inj]

/-- A stack slot is in page 0x01 (R37). -/
theorem hiByte_stackSlot (p : Byte) : hiByte (stackSlot p) = 0x01 := by simp [stackSlot]

/-- A vector, or the byte after it, is no stack slot: it is in page 0xFF (R41). -/
theorem stackSlot_ne_of_hiByte {addr : Word} (h : hiByte addr = 0xFF) (p : Byte) : addr ≠ stackSlot p := by
  intro e
  rw [e, hiByte_stackSlot] at h
  exact absurd h (by decide)

@[simp] theorem Byte.sub_one_ne (p : Byte) : p - 1#8 ≠ p := by bv_omega

@[simp] theorem Byte.ne_sub_one (p : Byte) : p ≠ p - 1#8 := by bv_omega

@[simp] theorem Byte.sub_two_ne (p : Byte) : p - 1#8 - 1#8 ≠ p := by bv_omega

@[simp] theorem Byte.ne_sub_two (p : Byte) : p ≠ p - 1#8 - 1#8 := by bv_omega

variable (s : State)

/-- A push stores at the slot of the old stack pointer and leaves every other byte alone (R38). -/
theorem State.push_read (v : Byte) (addr : Word) :
    (s.push v).mem.read addr = if addr = stackSlot s.sp then v else s.mem.read addr := by
  simp [Memory.read_write]

/-- A word push stores the high byte at the old stack pointer and the low byte below it (R39). -/
theorem State.pushWord_read (w : Word) (addr : Word) :
    (s.pushWord w).mem.read addr =
      if addr = stackSlot (s.sp - 1) then loByte w
      else if addr = stackSlot s.sp then hiByte w
      else s.mem.read addr := by
  simp [Memory.read_write]

/-- The byte pulled after a push is the byte pushed (R38). -/
@[simp] theorem State.top_push (v : Byte) : (s.push v).top = v := by
  simp [State.top]

/-- The word pulled after a word push is the word pushed (R39). -/
@[simp] theorem State.topWord_pushWord (w : Word) : (s.pushWord w).topWord = w := by
  simp [State.topWord, State.top, Memory.read_write, stackSlot_inj]

/-- The memory an entry leaves: the three stack bytes, every other byte as before (R207). -/
theorem State.interruptEntry_read (vector : Word) (b4 : Bool) (addr : Word) :
    (s.interruptEntry vector b4).mem.read addr =
      if addr = stackSlot (s.sp - 1 - 1) then s.flags.toByte b4
      else if addr = stackSlot (s.sp - 1) then loByte s.pc
      else if addr = stackSlot s.sp then hiByte s.pc
      else s.mem.read addr := by
  simp [Memory.read_write]

/-- The vector an entry reads is the one memory held before: no vector byte is a stack slot (R41, R208). -/
theorem State.interruptEntry_pc_eq (vector : Word) (b4 : Bool) (h : hiByte vector = 0xFF)
    (h' : hiByte (vector + 1) = 0xFF) : (s.interruptEntry vector b4).pc = s.readWord vector := by
  have hv := fun p => stackSlot_ne_of_hiByte h p
  have hv' : ∀ p, vector + 1#16 ≠ stackSlot p := fun p => stackSlot_ne_of_hiByte h' p
  simp [State.readWord, Memory.read_write, hv, hv']

/-- What an entry through a vector leaves, field by field (R207). -/
theorem State.interruptEntry_spec (vector : Word) (b4 : Bool) (h : hiByte vector = 0xFF)
    (h' : hiByte (vector + 1) = 0xFF) :
    s.interruptEntry vector b4 =
      { s with
        sp := s.sp - 1 - 1 - 1, pc := s.readWord vector, flags := { s.flags with i := true },
        mem := (s.interruptEntry vector b4).mem } := by
  rw [← State.interruptEntry_pc_eq s vector b4 h h']
  rfl

theorem nmiVector_page : hiByte nmiVector = 0xFF ∧ hiByte (nmiVector + 1) = 0xFF := by decide

theorem irqVector_page : hiByte irqVector = 0xFF ∧ hiByte (irqVector + 1) = 0xFF := by decide

/-- Every entry keeps memory in canonical form. -/
theorem State.interruptEntry_wf (vector : Word) (b4 : Bool) (h : s.mem.wf) : (s.interruptEntry vector b4).mem.wf :=
  Memory.wf_write _ _ (Memory.wf_write _ _ (Memory.wf_write _ _ h))

/-- The two entries a step makes, field by field (R200, R203, R204). -/
@[simp] theorem State.nmiEntry_nmiPending : s.nmiEntry.nmiPending = false := rfl

@[simp] theorem State.nmiEntry_irqPending : s.nmiEntry.irqPending = s.irqPending := rfl

@[simp] theorem State.irqEntry_nmiPending : s.irqEntry.nmiPending = s.nmiPending := rfl

@[simp] theorem State.irqEntry_irqPending : s.irqEntry.irqPending = false := rfl

end Sys2Proof.Machine
end

