-- ==== Sys2Proof/Laws/Exec.lean ====
section
/-! SUPPORT. What every instruction has in common: it answers a next state, and what that state keeps. -/

namespace Sys2Proof.Machine

/-- Every instruction answers a next state. -/
theorem exec_isNext (i : Instr) (s : State) : ∃ t, exec i s = .next t := by
  cases i <;> exact ⟨_, rfl⟩

@[simp] theorem State.branch_true (s : State) (r : Int) : s.branch true r = { s with pc := s.relativeTarget r } := rfl

@[simp] theorem State.branch_false (s : State) (r : Int) : s.branch false r = s := rfl

/-- A branch writes PC and nothing else (R160). -/
theorem State.branch_eq (s : State) (c : Bool) (r : Int) :
    s.branch c r = { s with pc := if c then s.relativeTarget r else s.pc } := by
  cases c <;> rfl

end Sys2Proof.Machine
end

