-- ==== Sys2Proof/Laws/Effect.lean ====
section
/-! SUPPORT. What an instruction does, said once by mnemonic and resolved operand: the resolver's page-cross report is
no input of it (R84), and how an address was formed is not either (R70, R86). -/

namespace Sys2Proof.Machine

variable (s : State)

/-- The byte an instruction reads as its operand; 0 for the kinds that have none (R86). -/
def State.valueOf (op : Resolved) : Byte := (s.loadOperand op).getD 0

/-- A store to a resolved operand (R86). -/
def State.storeResolved (v : Byte) : Resolved → State
  | .addr a => s.write a v
  | .none | .acc | .imm _ | .rel _ => s

/-- A read-modify-write of a resolved operand (R144). -/
def State.modifyResolved (f : Byte → Flags → Byte × Flags) : Resolved → State
  | .addr a => { s.write a (f (s.read a) s.flags).1 with flags := (f (s.read a) s.flags).2 }
  | .acc => s.modifyAcc f
  | .none | .imm _ | .rel _ => s

/-- A jump to a resolved address or target (R160, R169). -/
def State.jumpResolved : Resolved → State
  | .addr a | .rel a => { s with pc := a }
  | .none | .acc | .imm _ => s

/-- The state an instruction leaves (R101 to R193). -/
def State.effect (op : Resolved) : Mnemonic → State
  | .lda => s.loadA (s.valueOf op)
  | .ldx => s.loadX (s.valueOf op)
  | .ldy => s.loadY (s.valueOf op)
  | .sta => s.storeResolved s.a op
  | .stx => s.storeResolved s.x op
  | .sty => s.storeResolved s.y op
  | .tax => s.loadX s.a
  | .txa => s.loadA s.x
  | .tay => s.loadY s.a
  | .tya => s.loadA s.y
  | .tsx => s.loadX s.sp
  | .txs => { s with sp := s.x, flags := if Config.txsUpdatesNZ then s.flags.setZN s.x else s.flags }
  | .adc => s.adc (s.valueOf op)
  | .sbc => s.sbc (s.valueOf op)
  | .and => s.loadA (s.a &&& s.valueOf op)
  | .ora => s.loadA (s.a ||| s.valueOf op)
  | .eor => s.loadA (s.a ^^^ s.valueOf op)
  | .cmp => s.compare s.a (s.valueOf op)
  | .cpx => s.compare s.x (s.valueOf op)
  | .cpy => s.compare s.y (s.valueOf op)
  | .bit => s.bitTest (s.valueOf op)
  | .asl => s.modifyResolved shiftLeft op
  | .lsr => s.modifyResolved shiftRight op
  | .rol => s.modifyResolved rotateLeft op
  | .ror => s.modifyResolved rotateRight op
  | .inc => s.modifyResolved increment op
  | .dec => s.modifyResolved decrement op
  | .inx => s.loadX (s.x + 1)
  | .iny => s.loadY (s.y + 1)
  | .dex => s.loadX (s.x - 1)
  | .dey => s.loadY (s.y - 1)
  | .beq => if s.flags.z then s.jumpResolved op else s
  | .bne => if !s.flags.z then s.jumpResolved op else s
  | .bcc => if !s.flags.c then s.jumpResolved op else s
  | .bcs => if s.flags.c then s.jumpResolved op else s
  | .bmi => if s.flags.n then s.jumpResolved op else s
  | .bpl => if !s.flags.n then s.jumpResolved op else s
  | .bvc => if !s.flags.v then s.jumpResolved op else s
  | .bvs => if s.flags.v then s.jumpResolved op else s
  | .jmp => s.jumpResolved op
  | .jsr => (s.pushWord (s.pc - 1)).jumpResolved op
  | .rts => { s.popWord with pc := s.topWord + 1 }
  | .pha => s.push s.a
  | .pla => s.pop.loadA s.top
  | .php => s.push (s.flags.toByte true)
  | .plp => { s.pop with flags := s.flags.fromByte s.top }
  | .rti => s.interruptReturn
  | .brk => State.interruptEntry { s with pc := s.pc + 1 } irqVector true
  | .clc => { s with flags := { s.flags with c := false } }
  | .sec => { s with flags := { s.flags with c := true } }
  | .cli => { s with flags := { s.flags with i := false } }
  | .sei => { s with flags := { s.flags with i := true } }
  | .clv => { s with flags := { s.flags with v := false } }
  | .cld => { s with flags := { s.flags with d := false } }
  | .sed => { s with flags := { s.flags with d := true } }
  | .nop => s

/-- Every instruction has the effect of its mnemonic on its resolved operand. -/
theorem exec_eq_effect (i : Instr) : exec i s = .next (s.effect (s.resolve i.operand).1 i.mnemonic) := by
  cases i <;> rfl

end Sys2Proof.Machine
end

