-- ==== Sys2Proof/Laws/PerInstr.lean ====
section
/-! SUPPORT. Facts about every instruction as syntax, one lemma per constructor. -/

/-- The length of an instruction is found from its opcode byte alone (R50, R56): the entry of the opcode is there and
says how many bytes the encoding has. -/
def Sys2Proof.Laws.OpcodeLength.Statement (i : Sys2Proof.Instr) : Prop :=
  (Sys2Proof.findEntry i.opcode).map Sys2Proof.Entry.length = some (Sys2Proof.encode i).length

namespace Sys2Proof.Laws.OpcodeLength

theorem ldaImm (v : Byte) : Statement (.ldaImm v) := rfl
theorem ldaZp (z : Byte) : Statement (.ldaZp z) := rfl
theorem ldaZpX (z : Byte) : Statement (.ldaZpX z) := rfl
theorem ldaAbs (a : Word) : Statement (.ldaAbs a) := rfl
theorem ldaAbsX (a : Word) : Statement (.ldaAbsX a) := rfl
theorem ldaAbsY (a : Word) : Statement (.ldaAbsY a) := rfl
theorem ldaIndX (z : Byte) : Statement (.ldaIndX z) := rfl
theorem ldaIndY (z : Byte) : Statement (.ldaIndY z) := rfl
theorem ldxImm (v : Byte) : Statement (.ldxImm v) := rfl
theorem ldxZp (z : Byte) : Statement (.ldxZp z) := rfl
theorem ldxZpY (z : Byte) : Statement (.ldxZpY z) := rfl
theorem ldxAbs (a : Word) : Statement (.ldxAbs a) := rfl
theorem ldxAbsY (a : Word) : Statement (.ldxAbsY a) := rfl
theorem ldyImm (v : Byte) : Statement (.ldyImm v) := rfl
theorem ldyZp (z : Byte) : Statement (.ldyZp z) := rfl
theorem ldyZpX (z : Byte) : Statement (.ldyZpX z) := rfl
theorem ldyAbs (a : Word) : Statement (.ldyAbs a) := rfl
theorem ldyAbsX (a : Word) : Statement (.ldyAbsX a) := rfl
theorem staZp (z : Byte) : Statement (.staZp z) := rfl
theorem staZpX (z : Byte) : Statement (.staZpX z) := rfl
theorem staAbs (a : Word) : Statement (.staAbs a) := rfl
theorem staAbsX (a : Word) : Statement (.staAbsX a) := rfl
theorem staAbsY (a : Word) : Statement (.staAbsY a) := rfl
theorem staIndX (z : Byte) : Statement (.staIndX z) := rfl
theorem staIndY (z : Byte) : Statement (.staIndY z) := rfl
theorem stxZp (z : Byte) : Statement (.stxZp z) := rfl
theorem stxZpY (z : Byte) : Statement (.stxZpY z) := rfl
theorem stxAbs (a : Word) : Statement (.stxAbs a) := rfl
theorem styZp (z : Byte) : Statement (.styZp z) := rfl
theorem styZpX (z : Byte) : Statement (.styZpX z) := rfl
theorem styAbs (a : Word) : Statement (.styAbs a) := rfl
theorem tax : Statement .tax := rfl
theorem txa : Statement .txa := rfl
theorem tay : Statement .tay := rfl
theorem tya : Statement .tya := rfl
theorem tsx : Statement .tsx := rfl
theorem txs : Statement .txs := rfl
theorem adcImm (v : Byte) : Statement (.adcImm v) := rfl
theorem adcZp (z : Byte) : Statement (.adcZp z) := rfl
theorem adcZpX (z : Byte) : Statement (.adcZpX z) := rfl
theorem adcAbs (a : Word) : Statement (.adcAbs a) := rfl
theorem adcAbsX (a : Word) : Statement (.adcAbsX a) := rfl
theorem adcAbsY (a : Word) : Statement (.adcAbsY a) := rfl
theorem adcIndX (z : Byte) : Statement (.adcIndX z) := rfl
theorem adcIndY (z : Byte) : Statement (.adcIndY z) := rfl
theorem sbcImm (v : Byte) : Statement (.sbcImm v) := rfl
theorem sbcZp (z : Byte) : Statement (.sbcZp z) := rfl
theorem sbcZpX (z : Byte) : Statement (.sbcZpX z) := rfl
theorem sbcAbs (a : Word) : Statement (.sbcAbs a) := rfl
theorem sbcAbsX (a : Word) : Statement (.sbcAbsX a) := rfl
theorem sbcAbsY (a : Word) : Statement (.sbcAbsY a) := rfl
theorem sbcIndX (z : Byte) : Statement (.sbcIndX z) := rfl
theorem sbcIndY (z : Byte) : Statement (.sbcIndY z) := rfl
theorem andImm (v : Byte) : Statement (.andImm v) := rfl
theorem andZp (z : Byte) : Statement (.andZp z) := rfl
theorem andZpX (z : Byte) : Statement (.andZpX z) := rfl
theorem andAbs (a : Word) : Statement (.andAbs a) := rfl
theorem andAbsX (a : Word) : Statement (.andAbsX a) := rfl
theorem andAbsY (a : Word) : Statement (.andAbsY a) := rfl
theorem andIndX (z : Byte) : Statement (.andIndX z) := rfl
theorem andIndY (z : Byte) : Statement (.andIndY z) := rfl
theorem oraImm (v : Byte) : Statement (.oraImm v) := rfl
theorem oraZp (z : Byte) : Statement (.oraZp z) := rfl
theorem oraZpX (z : Byte) : Statement (.oraZpX z) := rfl
theorem oraAbs (a : Word) : Statement (.oraAbs a) := rfl
theorem oraAbsX (a : Word) : Statement (.oraAbsX a) := rfl
theorem oraAbsY (a : Word) : Statement (.oraAbsY a) := rfl
theorem oraIndX (z : Byte) : Statement (.oraIndX z) := rfl
theorem oraIndY (z : Byte) : Statement (.oraIndY z) := rfl
theorem eorImm (v : Byte) : Statement (.eorImm v) := rfl
theorem eorZp (z : Byte) : Statement (.eorZp z) := rfl
theorem eorZpX (z : Byte) : Statement (.eorZpX z) := rfl
theorem eorAbs (a : Word) : Statement (.eorAbs a) := rfl
theorem eorAbsX (a : Word) : Statement (.eorAbsX a) := rfl
theorem eorAbsY (a : Word) : Statement (.eorAbsY a) := rfl
theorem eorIndX (z : Byte) : Statement (.eorIndX z) := rfl
theorem eorIndY (z : Byte) : Statement (.eorIndY z) := rfl
theorem cmpImm (v : Byte) : Statement (.cmpImm v) := rfl
theorem cmpZp (z : Byte) : Statement (.cmpZp z) := rfl
theorem cmpZpX (z : Byte) : Statement (.cmpZpX z) := rfl
theorem cmpAbs (a : Word) : Statement (.cmpAbs a) := rfl
theorem cmpAbsX (a : Word) : Statement (.cmpAbsX a) := rfl
theorem cmpAbsY (a : Word) : Statement (.cmpAbsY a) := rfl
theorem cmpIndX (z : Byte) : Statement (.cmpIndX z) := rfl
theorem cmpIndY (z : Byte) : Statement (.cmpIndY z) := rfl
theorem cpxImm (v : Byte) : Statement (.cpxImm v) := rfl
theorem cpxZp (z : Byte) : Statement (.cpxZp z) := rfl
theorem cpxAbs (a : Word) : Statement (.cpxAbs a) := rfl
theorem cpyImm (v : Byte) : Statement (.cpyImm v) := rfl
theorem cpyZp (z : Byte) : Statement (.cpyZp z) := rfl
theorem cpyAbs (a : Word) : Statement (.cpyAbs a) := rfl
theorem bitZp (z : Byte) : Statement (.bitZp z) := rfl
theorem bitAbs (a : Word) : Statement (.bitAbs a) := rfl
theorem aslAcc : Statement .aslAcc := rfl
theorem aslZp (z : Byte) : Statement (.aslZp z) := rfl
theorem aslZpX (z : Byte) : Statement (.aslZpX z) := rfl
theorem aslAbs (a : Word) : Statement (.aslAbs a) := rfl
theorem aslAbsX (a : Word) : Statement (.aslAbsX a) := rfl
theorem lsrAcc : Statement .lsrAcc := rfl
theorem lsrZp (z : Byte) : Statement (.lsrZp z) := rfl
theorem lsrZpX (z : Byte) : Statement (.lsrZpX z) := rfl
theorem lsrAbs (a : Word) : Statement (.lsrAbs a) := rfl
theorem lsrAbsX (a : Word) : Statement (.lsrAbsX a) := rfl
theorem rolAcc : Statement .rolAcc := rfl
theorem rolZp (z : Byte) : Statement (.rolZp z) := rfl
theorem rolZpX (z : Byte) : Statement (.rolZpX z) := rfl
theorem rolAbs (a : Word) : Statement (.rolAbs a) := rfl
theorem rolAbsX (a : Word) : Statement (.rolAbsX a) := rfl
theorem rorAcc : Statement .rorAcc := rfl
theorem rorZp (z : Byte) : Statement (.rorZp z) := rfl
theorem rorZpX (z : Byte) : Statement (.rorZpX z) := rfl
theorem rorAbs (a : Word) : Statement (.rorAbs a) := rfl
theorem rorAbsX (a : Word) : Statement (.rorAbsX a) := rfl
theorem incZp (z : Byte) : Statement (.incZp z) := rfl
theorem incZpX (z : Byte) : Statement (.incZpX z) := rfl
theorem incAbs (a : Word) : Statement (.incAbs a) := rfl
theorem incAbsX (a : Word) : Statement (.incAbsX a) := rfl
theorem decZp (z : Byte) : Statement (.decZp z) := rfl
theorem decZpX (z : Byte) : Statement (.decZpX z) := rfl
theorem decAbs (a : Word) : Statement (.decAbs a) := rfl
theorem decAbsX (a : Word) : Statement (.decAbsX a) := rfl
theorem inx : Statement .inx := rfl
theorem iny : Statement .iny := rfl
theorem dex : Statement .dex := rfl
theorem dey : Statement .dey := rfl
theorem beq (r : Int) : Statement (.beq r) := rfl
theorem bne (r : Int) : Statement (.bne r) := rfl
theorem bcc (r : Int) : Statement (.bcc r) := rfl
theorem bcs (r : Int) : Statement (.bcs r) := rfl
theorem bmi (r : Int) : Statement (.bmi r) := rfl
theorem bpl (r : Int) : Statement (.bpl r) := rfl
theorem bvc (r : Int) : Statement (.bvc r) := rfl
theorem bvs (r : Int) : Statement (.bvs r) := rfl
theorem jmpAbs (a : Word) : Statement (.jmpAbs a) := rfl
theorem jmpInd (p : Word) : Statement (.jmpInd p) := rfl
theorem jsrAbs (a : Word) : Statement (.jsrAbs a) := rfl
theorem rts : Statement .rts := rfl
theorem pha : Statement .pha := rfl
theorem pla : Statement .pla := rfl
theorem php : Statement .php := rfl
theorem plp : Statement .plp := rfl
theorem rti : Statement .rti := rfl
theorem brk : Statement .brk := rfl
theorem clc : Statement .clc := rfl
theorem sec : Statement .sec := rfl
theorem cli : Statement .cli := rfl
theorem sei : Statement .sei := rfl
theorem clv : Statement .clv := rfl
theorem cld : Statement .cld := rfl
theorem sed : Statement .sed := rfl
theorem nop : Statement .nop := rfl

end Sys2Proof.Laws.OpcodeLength
end

