-- ==== Sys2Proof/Laws/Step.lean ====
section
/-! SUPPORT. What one step can do, said once. -/

namespace Sys2Proof.Machine

@[simp] theorem State.length_bytesAt (s : State) (addr : Word) (n : Nat) : (s.bytesAt addr n).length = n := by
  simp [State.bytesAt]

/-- A fetch finds an instruction when the opcode has an entry, and the illegal opcode otherwise: it is never cut
short (R50, R56). -/
theorem State.fetch_cases (s : State) :
    (∃ i, s.fetch = .ok i []) ∨ (findEntry s.opcodeByte = none ∧ s.fetch = .illegalOpcode s.opcodeByte) := by
  have hb : s.instrBytes = s.opcodeByte :: (s.instrBytes.tail) := by
    have hl : instrLength s.opcodeByte = (instrLength s.opcodeByte - 1) + 1 := by
      simp only [instrLength]
      split <;> simp [Entry.length, Nat.add_comm]
    rw [State.instrBytes, State.bytesAt, hl, List.range_succ_eq_map]
    simp [State.opcodeByte]
  unfold State.fetch
  rw [hb, decode_cons]
  cases he : findEntry s.opcodeByte with
  | none => right; simp
  | some e =>
    left
    have hl : s.instrBytes.tail.length = e.field.length := by
      simp [State.instrBytes, instrLength, he, Entry.length]
    obtain ⟨i, rest, hp⟩ := OperandField.parse_isOk e.field _ (Nat.le_of_eq hl.symm)
    have := OperandField.parse_rest hp
    have hr : rest = [] := List.eq_nil_of_length_eq_zero (by omega)
    exact ⟨i, by simpa [hr] using hp⟩

/-- A step that answers a next state is an NMI entry, an IRQ entry, or the instruction at PC (R200). -/
theorem step_cases {s t : State} (h : step s = .next t) :
    (s.service = .nmi ∧ t = s.nmiEntry) ∨ (s.service = .irq ∧ t = s.irqEntry) ∨
      (s.service = .none ∧ ∃ i, s.fetch = .ok i [] ∧ exec i s.fetched = .next t) := by
  unfold step at h
  cases hs : s.service with
  | nmi => rw [hs] at h; left; exact ⟨rfl, by simpa using h.symm⟩
  | irq => rw [hs] at h; right; left; exact ⟨rfl, by simpa using h.symm⟩
  | none =>
    rw [hs] at h
    right; right
    rcases s.fetch_cases with ⟨i, hi⟩ | ⟨-, hi⟩
    · exact ⟨rfl, i, hi, by simpa [hi] using h⟩
    · simp [hi] at h

/-- The service check in terms of the latches and I (R200 (1), R206). -/
theorem State.service_eq_nmi (s : State) : s.service = .nmi ↔ s.nmiPending = true := by
  unfold State.service
  cases s.nmiPending <;> cases s.irqPending <;> cases s.flags.i <;> simp

theorem State.service_eq_irq (s : State) :
    s.service = .irq ↔ s.nmiPending = false ∧ s.irqPending = true ∧ s.flags.i = false := by
  unfold State.service
  cases s.nmiPending <;> cases s.irqPending <;> cases s.flags.i <;> simp

theorem State.service_eq_none (s : State) :
    s.service = .none ↔ s.nmiPending = false ∧ (s.irqPending = true → s.flags.i = true) := by
  unfold State.service
  cases s.nmiPending <;> cases s.irqPending <;> cases s.flags.i <;> simp

end Sys2Proof.Machine
end

