-- ==== Sys2Proof/Laws/Run.lean ====
section
/-! SUPPORT. How a run unfolds by one step, and the one induction over a run. -/

namespace Sys2Proof.Machine

variable {s t : State} {stopAt : Option Word} {n : Nat}

/-- A run at its stop address ends there, whatever steps are left (R237). -/
theorem State.run_of_stop (h : some s.pc = stopAt) : s.run stopAt n = (s, .reached) := by
  cases n <;> simp [State.run, h]

/-- A run with no step left ends where it is (R237). -/
theorem State.run_zero (h : some s.pc ≠ stopAt) : s.run stopAt 0 = (s, .outOfSteps) := by
  simp [State.run, h]

/-- A run goes on from the state a step answers (R237). -/
theorem State.run_of_next (h : some s.pc ≠ stopAt) (hs : step s = .next t) :
    s.run stopAt (n + 1) = t.run stopAt n := by
  simp [State.run, h, hs]

/-- A run ends at the first `IllegalOpcode` (R202, R237). -/
theorem State.run_of_fault {op : Byte} {pc : Word} (h : some s.pc ≠ stopAt)
    (hs : step s = .fault (.illegalOpcode op pc)) :
    s.run stopAt (n + 1) = (s.afterIllegalOpcode, .illegalOpcode op pc) := by
  simp [State.run, h, hs]

/-- A step answers a next state or the one fault: no instruction is refused (R237). -/
theorem step_next_or_fault (s : State) :
    (∃ t, step s = .next t) ∨ ∃ op pc, step s = .fault (.illegalOpcode op pc) := by
  unfold step
  split
  · exact .inl ⟨_, rfl⟩
  · exact .inl ⟨_, rfl⟩
  · split
    · exact .inl (exec_isNext _ _)
    · exact .inr ⟨_, _, rfl⟩
    · exact .inr ⟨_, _, rfl⟩

/-- What every step and the error keep, a run keeps. -/
theorem State.run_keeps {P : State → Prop} (hstep : ∀ s t, P s → step s = .next t → P t)
    (hill : ∀ s, P s → P s.afterIllegalOpcode) (hs : P s) : P (s.run stopAt n).1 := by
  induction n generalizing s with
  | zero =>
    by_cases h : some s.pc = stopAt
    · rwa [State.run_of_stop h]
    · rwa [State.run_zero h]
  | succ n ih =>
    by_cases h : some s.pc = stopAt
    · rwa [State.run_of_stop h]
    · rcases step_next_or_fault s with ⟨t, ht⟩ | ⟨op, pc, hf⟩
      · rw [State.run_of_next h ht]
        exact ih (hstep s t hs ht)
      · rw [State.run_of_fault h hf]
        exact hill s hs

end Sys2Proof.Machine
end

