-- ==== Sys2Proof/Tests/Slice0.lean ====
section
/-! SUPPORT. The model's own tests. Expected values come from the spec: the words from the encodings of
spec/30_encoding.md and spec/opcode_table.json, the step tests from the vectors of spec/95_test_vectors.md, whose
number stands in the test's name. The last part shows, for every statement with hypotheses, inputs that meet them. -/

namespace Sys2Proof.Tests

open Sys2Proof.Machine Sys2Proof.Spec

/-! An instruction that has no encoding is refused (R52), and the ends of the range are not. -/

theorem test_wellFormed_refuses_offset_above : Instr.wellFormed (.beq 128) = false := by decide

theorem test_wellFormed_refuses_offset_below : Instr.wellFormed (.bvs (-129)) = false := by decide

theorem test_wellFormed_accepts_offset_ends :
    Instr.wellFormed (.beq 127) = true ∧ Instr.wellFormed (.bvs (-128)) = true := by decide

/-! Decoding: every constructor, from the word of its encoding. -/

/-- Each list of bytes, with one more byte after it, decodes to the instruction beside it. -/
def DecodesAll (pieces : List (List (List Byte × Instr))) : Prop :=
  (pieces.map fun rows => rows.map fun row => decode (row.1 ++ [0x5A])) =
    pieces.map fun rows => rows.map fun row => .ok row.2 [0x5A]

theorem test_decode_loads_stores_transfers :
    DecodesAll [
      [([0b10101001, 0x8F], .ldaImm 0x8F), ([0b10100101, 0x8F], .ldaZp 0x8F),
       ([0b10110101, 0x8F], .ldaZpX 0x8F), ([0b10101101, 0x34, 0x12], .ldaAbs 0x1234),
       ([0b10111101, 0x34, 0x12], .ldaAbsX 0x1234), ([0b10111001, 0x34, 0x12], .ldaAbsY 0x1234),
       ([0b10100001, 0x8F], .ldaIndX 0x8F), ([0b10110001, 0x8F], .ldaIndY 0x8F)],
      [([0b10100010, 0x8F], .ldxImm 0x8F), ([0b10100110, 0x8F], .ldxZp 0x8F),
       ([0b10110110, 0x8F], .ldxZpY 0x8F), ([0b10101110, 0x34, 0x12], .ldxAbs 0x1234),
       ([0b10111110, 0x34, 0x12], .ldxAbsY 0x1234)],
      [([0b10100000, 0x8F], .ldyImm 0x8F), ([0b10100100, 0x8F], .ldyZp 0x8F),
       ([0b10110100, 0x8F], .ldyZpX 0x8F), ([0b10101100, 0x34, 0x12], .ldyAbs 0x1234),
       ([0b10111100, 0x34, 0x12], .ldyAbsX 0x1234)],
      [([0b10000101, 0x8F], .staZp 0x8F), ([0b10010101, 0x8F], .staZpX 0x8F),
       ([0b10001101, 0x34, 0x12], .staAbs 0x1234), ([0b10011101, 0x34, 0x12], .staAbsX 0x1234),
       ([0b10011001, 0x34, 0x12], .staAbsY 0x1234), ([0b10000001, 0x8F], .staIndX 0x8F),
       ([0b10010001, 0x8F], .staIndY 0x8F)],
      [([0b10000110, 0x8F], .stxZp 0x8F), ([0b10010110, 0x8F], .stxZpY 0x8F),
       ([0b10001110, 0x34, 0x12], .stxAbs 0x1234)],
      [([0b10000100, 0x8F], .styZp 0x8F), ([0b10010100, 0x8F], .styZpX 0x8F),
       ([0b10001100, 0x34, 0x12], .styAbs 0x1234)],
      [([0b10101010], .tax), ([0b10001010], .txa), ([0b10101000], .tay), ([0b10011000], .tya),
       ([0b10111010], .tsx), ([0b10011010], .txs)]] := rfl

theorem test_decode_arithmetic_logic :
    DecodesAll [
      [([0b01101001, 0x8F], .adcImm 0x8F), ([0b01100101, 0x8F], .adcZp 0x8F),
       ([0b01110101, 0x8F], .adcZpX 0x8F), ([0b01101101, 0x34, 0x12], .adcAbs 0x1234),
       ([0b01111101, 0x34, 0x12], .adcAbsX 0x1234), ([0b01111001, 0x34, 0x12], .adcAbsY 0x1234),
       ([0b01100001, 0x8F], .adcIndX 0x8F), ([0b01110001, 0x8F], .adcIndY 0x8F)],
      [([0b11101001, 0x8F], .sbcImm 0x8F), ([0b11100101, 0x8F], .sbcZp 0x8F),
       ([0b11110101, 0x8F], .sbcZpX 0x8F), ([0b11101101, 0x34, 0x12], .sbcAbs 0x1234),
       ([0b11111101, 0x34, 0x12], .sbcAbsX 0x1234), ([0b11111001, 0x34, 0x12], .sbcAbsY 0x1234),
       ([0b11100001, 0x8F], .sbcIndX 0x8F), ([0b11110001, 0x8F], .sbcIndY 0x8F)],
      [([0b00101001, 0x8F], .andImm 0x8F), ([0b00100101, 0x8F], .andZp 0x8F),
       ([0b00110101, 0x8F], .andZpX 0x8F), ([0b00101101, 0x34, 0x12], .andAbs 0x1234),
       ([0b00111101, 0x34, 0x12], .andAbsX 0x1234), ([0b00111001, 0x34, 0x12], .andAbsY 0x1234),
       ([0b00100001, 0x8F], .andIndX 0x8F), ([0b00110001, 0x8F], .andIndY 0x8F)],
      [([0b00001001, 0x8F], .oraImm 0x8F), ([0b00000101, 0x8F], .oraZp 0x8F),
       ([0b00010101, 0x8F], .oraZpX 0x8F), ([0b00001101, 0x34, 0x12], .oraAbs 0x1234),
       ([0b00011101, 0x34, 0x12], .oraAbsX 0x1234), ([0b00011001, 0x34, 0x12], .oraAbsY 0x1234),
       ([0b00000001, 0x8F], .oraIndX 0x8F), ([0b00010001, 0x8F], .oraIndY 0x8F)],
      [([0b01001001, 0x8F], .eorImm 0x8F), ([0b01000101, 0x8F], .eorZp 0x8F),
       ([0b01010101, 0x8F], .eorZpX 0x8F), ([0b01001101, 0x34, 0x12], .eorAbs 0x1234),
       ([0b01011101, 0x34, 0x12], .eorAbsX 0x1234), ([0b01011001, 0x34, 0x12], .eorAbsY 0x1234),
       ([0b01000001, 0x8F], .eorIndX 0x8F), ([0b01010001, 0x8F], .eorIndY 0x8F)],
      [([0b11001001, 0x8F], .cmpImm 0x8F), ([0b11000101, 0x8F], .cmpZp 0x8F),
       ([0b11010101, 0x8F], .cmpZpX 0x8F), ([0b11001101, 0x34, 0x12], .cmpAbs 0x1234),
       ([0b11011101, 0x34, 0x12], .cmpAbsX 0x1234), ([0b11011001, 0x34, 0x12], .cmpAbsY 0x1234),
       ([0b11000001, 0x8F], .cmpIndX 0x8F), ([0b11010001, 0x8F], .cmpIndY 0x8F)],
      [([0b11100000, 0x8F], .cpxImm 0x8F), ([0b11100100, 0x8F], .cpxZp 0x8F),
       ([0b11101100, 0x34, 0x12], .cpxAbs 0x1234)],
      [([0b11000000, 0x8F], .cpyImm 0x8F), ([0b11000100, 0x8F], .cpyZp 0x8F),
       ([0b11001100, 0x34, 0x12], .cpyAbs 0x1234)],
      [([0b00100100, 0x8F], .bitZp 0x8F), ([0b00101100, 0x34, 0x12], .bitAbs 0x1234)]] := rfl

theorem test_decode_shifts_increments :
    DecodesAll [
      [([0b00001010], .aslAcc), ([0b00000110, 0x8F], .aslZp 0x8F), ([0b00010110, 0x8F], .aslZpX 0x8F),
       ([0b00001110, 0x34, 0x12], .aslAbs 0x1234), ([0b00011110, 0x34, 0x12], .aslAbsX 0x1234)],
      [([0b01001010], .lsrAcc), ([0b01000110, 0x8F], .lsrZp 0x8F), ([0b01010110, 0x8F], .lsrZpX 0x8F),
       ([0b01001110, 0x34, 0x12], .lsrAbs 0x1234), ([0b01011110, 0x34, 0x12], .lsrAbsX 0x1234)],
      [([0b00101010], .rolAcc), ([0b00100110, 0x8F], .rolZp 0x8F), ([0b00110110, 0x8F], .rolZpX 0x8F),
       ([0b00101110, 0x34, 0x12], .rolAbs 0x1234), ([0b00111110, 0x34, 0x12], .rolAbsX 0x1234)],
      [([0b01101010], .rorAcc), ([0b01100110, 0x8F], .rorZp 0x8F), ([0b01110110, 0x8F], .rorZpX 0x8F),
       ([0b01101110, 0x34, 0x12], .rorAbs 0x1234), ([0b01111110, 0x34, 0x12], .rorAbsX 0x1234)],
      [([0b11100110, 0x8F], .incZp 0x8F), ([0b11110110, 0x8F], .incZpX 0x8F),
       ([0b11101110, 0x34, 0x12], .incAbs 0x1234), ([0b11111110, 0x34, 0x12], .incAbsX 0x1234)],
      [([0b11000110, 0x8F], .decZp 0x8F), ([0b11010110, 0x8F], .decZpX 0x8F),
       ([0b11001110, 0x34, 0x12], .decAbs 0x1234), ([0b11011110, 0x34, 0x12], .decAbsX 0x1234)],
      [([0b11101000], .inx), ([0b11001000], .iny), ([0b11001010], .dex), ([0b10001000], .dey)]] := rfl

theorem test_decode_branches_jumps :
    DecodesAll [
      [([0b11110000, 0xFE], .beq (-2)), ([0b11010000, 0xFE], .bne (-2)), ([0b10010000, 0xFE], .bcc (-2)),
       ([0b10110000, 0xFE], .bcs (-2)), ([0b00110000, 0xFE], .bmi (-2)), ([0b00010000, 0xFE], .bpl (-2))],
      [([0b01010000, 0xFE], .bvc (-2)), ([0b01110000, 0xFE], .bvs (-2)),
       ([0b01001100, 0x34, 0x12], .jmpAbs 0x1234), ([0b01101100, 0x34, 0x12], .jmpInd 0x1234),
       ([0b00100000, 0x34, 0x12], .jsrAbs 0x1234), ([0b01100000], .rts)]] := rfl

theorem test_decode_stack_flags_system :
    DecodesAll [
      [([0b01001000], .pha), ([0b01101000], .pla), ([0b00001000], .php), ([0b00101000], .plp),
       ([0b01000000], .rti), ([0b00000000], .brk)],
      [([0b00011000], .clc), ([0b00111000], .sec), ([0b01011000], .cli), ([0b01111000], .sei),
       ([0b10111000], .clv), ([0b11011000], .cld)],
      [([0b11111000], .sed), ([0b11101010], .nop)]] := rfl

theorem test_decode_refuses_by_name : decode [0x02, 0x10] = .illegalOpcode 0x02 ∧ decode [0xFF] = .illegalOpcode 0xFF := by
  decide +kernel

theorem test_decode_reports_missing_bytes : decode [] = .truncated ∧ decode [0xAD, 0x34] = .truncated := by
  decide +kernel

theorem test_table_word_numbering :
    decodeTableWord 24 0x1234AD = some (.ldaAbs 0x1234) ∧ decodeTableWord 8 0xEA = some .nop ∧
      decodeTableWord 8 0x02 = none := by
  decide +kernel

/-! The status byte (vectors S9, S18). -/

theorem test_S9_toByte :
    let f : Flags := { n := true, v := false, b := false, d := false, i := false, z := false, c := true }
    f.toByte false = 0xA1 ∧ f.toByte true = 0xB1 := by
  decide +kernel

theorem test_S18_fromByte :
    Flags.fromByte 0xC3 { n := false, v := false, b := false, d := true, i := true, z := false, c := false } =
      { n := true, v := true, b := false, d := false, i := false, z := true, c := true } := by
  decide +kernel

/-! One step each. -/

/-- Every flag 0. -/
def clear : Flags := { n := false, v := false, b := false, d := false, i := false, z := false, c := false }

/-- Every register but SP, every flag and both latches 0, SP = 0xFD, a program at PC, and these other bytes. -/
def start (pc : Word) (program : List Byte) (cells : List (Word × Byte) := []) : State :=
  cells.foldl (fun s cell => s.write cell.1 cell.2)
    (State.writeBytes
      { a := 0, x := 0, y := 0, sp := 0xFD, pc := pc,
        flags := clear, nmiPending := false, irqPending := false, mem := [] } pc program)

/-- What a test looks at of the state a step answers. -/
def after {α : Type} (s : State) (look : State → α) : Option α :=
  match step s with
  | .next t => some (look t)
  | .fault _ | .refused _ => none

theorem test_M8_ldx_zeroPageY_wraps :
    after { start 0x8000 [0xB6, 0xF0] [(0x0010, 0x55), (0x0110, 0x22)] with y := 0x20 }
      (fun t => (t.x, t.pc)) =
      some (0x55, 0x8002) := rfl

theorem test_L4_ldy :
    after { start 0x8000 [0xBC, 0x00, 0x03] [(0x0302, 0x7F)] with x := 0x02 }
      (fun t => (t.y, t.pc)) =
      some (0x7F, 0x8003) := rfl

theorem test_M14_sta_across_page :
    after { start 0x8000 [0x9D, 0xF0, 0x12] with a := 0x07, x := 0x20 }
      (fun t => (t.pc, t.read 0x1310)) =
      some (0x8003, 0x07) := rfl

theorem test_L6_stx :
    after { start 0x8000 [0x96, 0xFF] with x := 0x80, y := 0x01 }
      (fun t => (t.pc, t.read 0x0000)) =
      some (0x8002, 0x80) := rfl

theorem test_L7_sty :
    after { start 0x8000 [0x8C, 0x00, 0x02] with y := 0x33 }
      (fun t => (t.pc, t.read 0x0200)) =
      some (0x8003, 0x33) := rfl

theorem test_L8_tax :
    after { start 0x8000 [0xAA] with a := 0x80 }
      (fun t => (t.x, t.pc, t.flags.n)) =
      some (0x80, 0x8001, true) := rfl

theorem test_L9_txa :
    after { start 0x8000 [0x8A] with a := 0x11 }
      (fun t => (t.a, t.pc, t.flags.z)) =
      some (0x00, 0x8001, true) := rfl

theorem test_L10_tay :
    after { start 0x8000 [0xA8] with a := 0x01, y := 0x55 }
      (fun t => (t.y, t.pc)) =
      some (0x01, 0x8001) := rfl

theorem test_L11_tya :
    after { start 0x8000 [0x98] with y := 0xFF }
      (fun t => (t.a, t.pc, t.flags.n)) =
      some (0xFF, 0x8001, true) := rfl

theorem test_L12_tsx :
    after (start 0x8000 [0xBA])
      (fun t => (t.x, t.pc, t.flags.n)) =
      some (0xFD, 0x8001, true) := rfl

theorem test_L13_txs_negative :
    after { start 0x8000 [0x9A] with x := 0xFF, sp := 0x10 }
      (fun t => (t.sp, t.pc, t.flags.n)) =
      some (0xFF, 0x8001, true) := rfl

theorem test_L14_txs_zero :
    after { start 0x8000 [0x9A] with sp := 0x10, flags := { clear with n := true } }
      (fun t => (t.sp, t.pc, t.flags.n, t.flags.z)) =
      some (0x00, 0x8001, false, true) := rfl

theorem test_M18_lda_indirectX_pointer_wraps :
    after { start 0x8000 [0xA1, 0xFE] [(0x0000, 0x12), (0x00FF, 0x34), (0x0100, 0x99), (0x1234, 0x0D)] with x := 0x01 }
      (fun t => (t.a, t.pc)) =
      some (0x0D, 0x8002) := rfl

theorem test_Q7_and :
    after { start 0x8000 [0x35, 0x10] [(0x0012, 0x81)] with a := 0xC3, x := 0x02 }
      (fun t => (t.a, t.pc, t.flags.n)) =
      some (0x81, 0x8002, true) := rfl

theorem test_Q4_ora_zero :
    after { start 0x8000 [0x09, 0x00] with flags := { clear with n := true } }
      (fun t => (t.pc, t.flags.n, t.flags.z)) =
      some (0x8002, false, true) := rfl

theorem test_Q6_eor :
    after { start 0x8000 [0x49, 0x5A] with a := 0x5A }
      (fun t => (t.a, t.pc, t.flags.z)) =
      some (0x00, 0x8002, true) := rfl

theorem test_Q10_cmp_less :
    after (start 0x8000 [0xC9, 0x01])
      (fun t => (t.pc, t.flags.n, t.flags.z, t.flags.c)) =
      some (0x8002, true, false, false) := rfl

theorem test_Q11_cmp_sign :
    after { start 0x8000 [0xC9, 0x00] with a := 0x80 }
      (fun t => (t.pc, t.flags.n, t.flags.z, t.flags.c)) =
      some (0x8002, true, false, true) := rfl

theorem test_Q14_cpx :
    after { start 0x8000 [0xE4, 0x20] [(0x0020, 0x20)] with x := 0x10 }
      (fun t => (t.pc, t.flags.n, t.flags.z, t.flags.c)) =
      some (0x8002, true, false, false) := rfl

theorem test_Q16_cpy :
    after { start 0x8000 [0xCC, 0x00, 0x03] [(0x0300, 0x7F)] with y := 0xFF }
      (fun t => (t.pc, t.flags.n, t.flags.z, t.flags.c)) =
      some (0x8003, true, false, true) := rfl

theorem test_Q17_bit :
    after { start 0x8000 [0x24, 0x10] [(0x0010, 0xC0)] with a := 0x01 }
      (fun t => (t.pc, t.flags.n, t.flags.v, t.flags.z)) =
      some (0x8002, true, true, true) := rfl

theorem test_Q18_bit_clears :
    after { start 0x8000 [0x2C, 0x00, 0x03] [(0x0300, 0x3F)] with a := 0xFF, flags := { clear with n := true, v := true, c := true } }
      (fun t => (t.pc, t.flags.n, t.flags.v, t.flags.z, t.flags.c)) =
      some (0x8003, false, false, false, true) := rfl

theorem test_H3_asl_memory :
    after { start 0x8000 [0x06, 0x10] [(0x0010, 0x55)] with flags := { clear with c := true } }
      (fun t => (t.pc, t.flags.n, t.flags.c, t.read 0x0010)) =
      some (0x8002, true, false, 0xAA) := rfl

theorem test_H2_asl_carry_out :
    after { start 0x8000 [0x0A] with a := 0x80 }
      (fun t => (t.a, t.pc, t.flags.z, t.flags.c)) =
      some (0x00, 0x8001, true, true) := rfl

theorem test_H4_lsr :
    after { start 0x8000 [0x4A] with a := 0x03 }
      (fun t => (t.a, t.pc, t.flags.c)) =
      some (0x01, 0x8001, true) := rfl

theorem test_H6_lsr_memory :
    after { start 0x8000 [0x5E, 0x00, 0x02] [(0x0201, 0x80)] with x := 0x01 }
      (fun t => (t.pc, t.read 0x0201)) =
      some (0x8003, 0x40) := rfl

theorem test_H7_rol_carry_in :
    after { start 0x8000 [0x2A] with a := 0x40, flags := { clear with c := true } }
      (fun t => (t.a, t.pc, t.flags.n, t.flags.c)) =
      some (0x81, 0x8001, true, false) := rfl

theorem test_H9_rol_memory :
    after { start 0x8000 [0x26, 0x10] with flags := { clear with c := true } }
      (fun t => (t.pc, t.flags.c, t.read 0x0010)) =
      some (0x8002, false, 0x01) := rfl

theorem test_H10_ror_carry_in :
    after { start 0x8000 [0x6A] with a := 0x02, flags := { clear with c := true } }
      (fun t => (t.a, t.pc, t.flags.n, t.flags.c)) =
      some (0x81, 0x8001, true, false) := rfl

theorem test_H12_ror_memory :
    after { start 0x8000 [0x76, 0x00] with x := 0x0F, flags := { clear with c := true } }
      (fun t => (t.pc, t.flags.n, t.flags.c, t.read 0x000F)) =
      some (0x8002, true, false, 0x80) := rfl

theorem test_H14_inc_wraps :
    after (start 0x8000 [0xE6, 0x10] [(0x0010, 0xFF)])
      (fun t => (t.pc, t.flags.z, t.read 0x0010)) =
      some (0x8002, true, 0x00) := rfl

theorem test_H16_dec_wraps :
    after { start 0x8000 [0xDE, 0x00, 0x02] with x := 0xFF }
      (fun t => (t.pc, t.flags.n, t.read 0x02FF)) =
      some (0x8003, true, 0xFF) := rfl

theorem test_H17_inx_wraps :
    after { start 0x8000 [0xE8] with x := 0xFF }
      (fun t => (t.x, t.pc, t.flags.z)) =
      some (0x00, 0x8001, true) := rfl

theorem test_H18_iny :
    after { start 0x8000 [0xC8] with y := 0x7F }
      (fun t => (t.y, t.pc, t.flags.n)) =
      some (0x80, 0x8001, true) := rfl

theorem test_H20_dex_wraps :
    after (start 0x8000 [0xCA])
      (fun t => (t.x, t.pc, t.flags.n)) =
      some (0xFF, 0x8001, true) := rfl

theorem test_H21_dey_wraps :
    after (start 0x8000 [0x88])
      (fun t => (t.y, t.pc, t.flags.n)) =
      some (0xFF, 0x8001, true) := rfl

theorem test_M24_beq_across_page :
    after { start 0x80F0 [0xF0, 0x7F] with flags := { clear with z := true } }
      (fun t => (t.pc, t.flags.z)) =
      some (0x8171, true) := rfl

theorem test_B20_beq_not_taken :
    after (start 0x8000 [0xF0, 0xFD])
      (fun t => t.pc) =
      some 0x8002 := rfl

theorem test_M23_bne_backward :
    after (start 0x8008 [0xD0, 0xFB])
      (fun t => t.pc) =
      some 0x8005 := rfl

theorem test_M26_bcc_wraps :
    after (start 0x0010 [0x90, 0x80])
      (fun t => t.pc) =
      some 0xFF92 := rfl

theorem test_B6_bcs :
    after { start 0x8000 [0xB0, 0x10] with flags := { clear with c := true } }
      (fun t => (t.pc, t.flags.c)) =
      some (0x8012, true) := rfl

theorem test_B10_bmi :
    after { start 0x8000 [0x30, 0x10] with flags := { clear with n := true } }
      (fun t => (t.pc, t.flags.n)) =
      some (0x8012, true) := rfl

theorem test_M25_bpl_to_itself :
    after (start 0x8000 [0x10, 0xFE])
      (fun t => t.pc) =
      some 0x8000 := rfl

theorem test_B15_bvc :
    after (start 0x8000 [0x50, 0x10])
      (fun t => t.pc) =
      some 0x8012 := rfl

theorem test_B14_bvs :
    after { start 0x8000 [0x70, 0x10] with flags := { clear with v := true } }
      (fun t => (t.pc, t.flags.v)) =
      some (0x8012, true) := rfl

theorem test_M15_jmp_indirect_page :
    after (start 0x8000 [0x6C, 0xFF, 0x30] [(0x3000, 0x50), (0x30FF, 0x40), (0x3100, 0x60)])
      (fun t => t.pc) =
      some 0x5040 := rfl

theorem test_B21_jmp_absolute :
    after (start 0x8000 [0x4C, 0x34, 0x12])
      (fun t => t.pc) =
      some 0x1234 := rfl

theorem test_B25_jsr_stack_wraps :
    after { start 0x80FE [0x20, 0x34, 0x12] with sp := 0x00 }
      (fun t => (t.sp, t.pc, t.read 0x0100, t.read 0x01FF)) =
      some (0xFE, 0x1234, 0x81, 0x00) := rfl

theorem test_B26_rts_wraps :
    after { start 0x9000 [0x60] [(0x0100, 0xFF), (0x01FF, 0xFF)] with sp := 0xFE }
      (fun t => (t.sp, t.pc)) =
      some (0x00, 0x0000) := rfl

theorem test_K2_pha_wraps :
    after { start 0x8000 [0x48] with a := 0x42, sp := 0x00 }
      (fun t => (t.sp, t.pc, t.read 0x0100)) =
      some (0xFF, 0x8001, 0x42) := rfl

theorem test_K4_pla_wraps :
    after { start 0x8000 [0x68] [(0x0100, 0x80)] with sp := 0xFF }
      (fun t => (t.a, t.sp, t.pc, t.flags.n)) =
      some (0x80, 0x00, 0x8001, true) := rfl

theorem test_K5_php :
    after { start 0x8000 [0x08] with flags := { clear with n := true, c := true } }
      (fun t => (t.sp, t.pc, t.flags.n, t.flags.c, t.read 0x01FD)) =
      some (0xFC, 0x8001, true, true, 0xB1) := rfl

theorem test_K8_plp :
    after { start 0x8000 [0x28] [(0x01FD, 0xC3)] with sp := 0xFC }
      (fun t => (t.sp, t.pc, t.flags.n, t.flags.v, t.flags.z, t.flags.c)) =
      some (0xFD, 0x8001, true, true, true, true) := rfl

theorem test_K9_plp_clears :
    after { start 0x8000 [0x28] [(0x01FD, 0x30)] with sp := 0xFC, flags := { clear with n := true, v := true, d := true, i := true, z := true, c := true } }
      (fun t => (t.sp, t.pc, t.flags.n, t.flags.v, t.flags.d, t.flags.i, t.flags.z, t.flags.c)) =
      some (0xFD, 0x8001, false, false, false, false, false, false) := rfl

theorem test_K11_rti :
    after { start 0x9000 [0x40] [(0x01FB, 0x21), (0x01FC, 0x34), (0x01FD, 0x12)] with sp := 0xFA }
      (fun t => (t.sp, t.pc, t.flags.c)) =
      some (0xFD, 0x1234, true) := rfl

theorem test_K12_rti_flags :
    after { start 0x9000 [0x40] [(0x01FB, 0xFB), (0x01FC, 0xFF), (0x01FD, 0xFF)] with sp := 0xFA, flags := { clear with i := true } }
      (fun t => (t.sp, t.pc, t.flags.n, t.flags.v, t.flags.d, t.flags.i, t.flags.z, t.flags.c)) =
      some (0xFD, 0xFFFF, true, true, true, false, true, true) := rfl

theorem test_K15_brk_wraps :
    after { start 0xFFFF [0x00] [(0xFFFE, 0x34)] with sp := 0x01 }
      (fun t => (t.sp, t.pc, t.flags.i, t.read 0x0101, t.read 0x0100, t.read 0x01FF)) =
      some (0xFE, 0x0034, true, 0x00, 0x01, 0x30) := rfl

theorem test_K16_clc :
    after { start 0x8000 [0x18] with flags := { clear with c := true } }
      (fun t => (t.pc, t.flags.c)) =
      some (0x8001, false) := rfl

theorem test_K17_sec :
    after (start 0x8000 [0x38])
      (fun t => (t.pc, t.flags.c)) =
      some (0x8001, true) := rfl

theorem test_K18_cli :
    after { start 0x8000 [0x58] with flags := { clear with i := true } }
      (fun t => (t.pc, t.flags.i)) =
      some (0x8001, false) := rfl

theorem test_K19_sei :
    after (start 0x8000 [0x78])
      (fun t => (t.pc, t.flags.i)) =
      some (0x8001, true) := rfl

theorem test_K20_clv :
    after { start 0x8000 [0xB8] with flags := { clear with v := true } }
      (fun t => (t.pc, t.flags.v)) =
      some (0x8001, false) := rfl

theorem test_K21_cld :
    after { start 0x8000 [0xD8] with flags := { clear with d := true } }
      (fun t => (t.pc, t.flags.d)) =
      some (0x8001, false) := rfl

theorem test_K22_sed :
    after (start 0x8000 [0xF8])
      (fun t => (t.pc, t.flags.d)) =
      some (0x8001, true) := rfl

theorem test_K23_nop :
    after { start 0x8000 [0xEA] with a := 0x01, x := 0x02, y := 0x03, flags := { clear with n := true, c := true } }
      (fun t => (t.pc, t.flags.n, t.flags.c)) =
      some (0x8001, true, true) := rfl

theorem test_E1_nmi_entry :
    after { start 0x8010 [0xEA] [(0xFFFB, 0xA0), (0xFFFF, 0x90)] with nmiPending := true, flags := { clear with c := true } }
      (fun t => (t.sp, t.pc, t.flags.i, t.nmiPending, t.flags.c, t.read 0x01FD, t.read 0x01FC, t.read 0x01FB)) =
      some (0xFA, 0xA000, true, false, true, 0x80, 0x10, 0x21) := rfl

theorem test_E3_irq_entry :
    after { start 0x8010 [0xEA] [(0xFFFB, 0xA0), (0xFFFF, 0x90)] with irqPending := true, flags := { clear with z := true } }
      (fun t => (t.sp, t.pc, t.flags.i, t.irqPending, t.flags.z, t.read 0x01FD, t.read 0x01FC, t.read 0x01FB)) =
      some (0xFA, 0x9000, true, false, true, 0x80, 0x10, 0x22) := rfl

theorem test_E4_irq_masked :
    after { start 0x8010 [0xEA] [(0xFFFB, 0xA0), (0xFFFF, 0x90)] with irqPending := true, flags := { clear with i := true } }
      (fun t => (t.pc, t.flags.i)) =
      some (0x8011, true) := rfl

theorem test_E5_nmi_before_irq :
    after { start 0x8010 [0xEA] [(0xFFFB, 0xA0), (0xFFFF, 0x90)] with nmiPending := true, irqPending := true }
      (fun t => (t.sp, t.pc, t.flags.i, t.nmiPending, t.read 0x01FD, t.read 0x01FC, t.read 0x01FB)) =
      some (0xFA, 0xA000, true, false, 0x80, 0x10, 0x20) := rfl

theorem test_A10_adc_carry_overflows :
    after { start 0x8000 [0x69, 0x00] with a := 0x7F, flags := { clear with c := true, d := false } }
      (fun t => (t.a, t.flags.n, t.flags.v, t.flags.z, t.flags.c)) = some (0x80, true, true, false, false) := rfl

theorem test_A17_adc_ignores_decimal :
    after { start 0x8000 [0x69, 0x01] with a := 0x99, flags := { clear with c := false, d := true } }
      (fun t => (t.a, t.flags.n, t.flags.v, t.flags.z, t.flags.c)) = some (0x9A, true, false, false, false) := rfl

theorem test_A29_sbc_overflows :
    after { start 0x8000 [0xE9, 0x01] with a := 0x80, flags := { clear with c := true, d := false } }
      (fun t => (t.a, t.flags.n, t.flags.v, t.flags.z, t.flags.c)) = some (0x7F, false, true, false, true) := rfl

theorem test_A27_sbc_borrow :
    after { start 0x8000 [0xE9, 0x05] with a := 0x05, flags := { clear with c := false, d := false } }
      (fun t => (t.a, t.flags.n, t.flags.v, t.flags.z, t.flags.c)) = some (0xFF, true, false, false, false) := rfl

theorem test_E10_illegal_opcode :
    step (start 0xFFFF [0xFF]) = .fault (.illegalOpcode 0xFF 0xFFFF) ∧
      (transact (start 0xFFFF [0xFF]) .step).pc = 0x0000 :=
  ⟨rfl, rfl⟩

theorem test_M22_lda_indirectY_pointer_wraps :
    let s := { start 0x8000 [0xB1, 0xFF] [(0x0000, 0xFF), (0x00FF, 0xFF)] with y := 0x01 }
    after s (fun t => (t.a, t.pc, t.flags.n)) = some (0xFF, 0x8002, true) ∧ stepCycles s = some 6 ∧
      stepAccesses s =
        [.read 0x8000 0xB1, .read 0x8001 0xFF, .read 0x00FF 0xFF, .read 0x0000 0xFF, .read 0x0000 0xFF] :=
  ⟨rfl, rfl, rfl⟩

theorem test_K14_bus :
    stepAccesses { start 0x8000 [0x00, 0xEA] [(0xFFFE, 0x34), (0xFFFF, 0x12)] with
      flags := { clear with n := true, d := true, c := true } } =
        [.read 0x8000 0x00, .write 0x01FD 0x80, .write 0x01FC 0x02, .write 0x01FB 0xB9, .read 0xFFFE 0x34,
          .read 0xFFFF 0x12] :=
  rfl

theorem test_X1_power_on_then_reset :
    transactAll (start 0 [] [(0xFFFD, 0x80)]) [.powerOn, .reset] =
      { start 0 [] [(0xFFFD, 0x80)] with pc := 0x8000, flags := Config.powerOnFlags } := by
  decide +kernel

/-- The reset state with an instruction placed runs it as its first step (log 5). -/
theorem test_withFetchWord_runs_the_word :
    after (State.reset.withFetchWord 24 0x12348D) (fun t => (t.pc, t.read 0x1234)) = some (0x0003, 0x00) := by
  decide +kernel

/-- A reset counts 7 and a step its own number (R236, D16). -/
theorem test_cycles_of_reset_and_step :
    transactionCycles State.reset .reset = some 7 ∧ transactionCycles (start 0x8000 [0xEA]) .step = some 2 :=
  ⟨rfl, rfl⟩

/-- The first program of §8 of the source, entered with set_pc (R233): `A9 42` at 0x8000, one step. -/
theorem test_run_of_a_launch :
    let l : Launch :=
      { mem := (Memory.write [] 0x8000 0xA9).write 0x8001 0x42, entry := some 0x8000, stopAt := some 0x8002, budget := 5 }
    (l.run.1.a, l.run.1.pc, l.run.2) = (0x42, 0x8002, .reached) :=
  rfl

theorem test_reset_memory_wf : State.reset.mem.wf := by decide

/-! Inputs that meet the hypotheses of each statement, one for each of its clauses. -/

/-- A state with no request pending and an arbitrary byte in every register. -/
def busy : State :=
  { start 0x8000 [0xEA] [(0xFFFA, 0x12), (0xFFFE, 0x34)] with a := 0x80, x := 0xFF, y := 0x01, sp := 0x00 }

theorem witness_LoadsTakeTheOperandValue :
    Instr.mnemonic (.ldaIndY 0xFF) = .lda ∧ Instr.mnemonic (.ldxZpY 0x80) = .ldx ∧
      Instr.mnemonic (.ldyAbsX 0xFFFF) = .ldy := by decide

theorem witness_StoresWriteOneByte :
    Instr.mnemonic (.staIndX 0xFF) = .sta ∧ Instr.mnemonic (.stxZpY 0xFF) = .stx ∧
      Instr.mnemonic (.styAbs 0xFFFF) = .sty := by decide

theorem witness_AdcAddsWithCarry : Instr.mnemonic (.adcIndY 0xFF) = .adc := by decide

theorem witness_SbcSubtractsWithBorrow : Instr.mnemonic (.sbcImm 0) = .sbc := by decide

theorem witness_DecimalFlagDoesNotReachArithmetic :
    (Instr.mnemonic (.adcImm 0x99) = .adc ∨ Instr.mnemonic (.adcImm 0x99) = .sbc) ∧
      (Instr.mnemonic (.sbcAbs 0xFFFF) = .adc ∨ Instr.mnemonic (.sbcAbs 0xFFFF) = .sbc) := by decide

theorem witness_LogicCombinesWithTheAccumulator :
    Instr.mnemonic (.andImm 0) = .and ∧ Instr.mnemonic (.oraIndX 0xFF) = .ora ∧
      Instr.mnemonic (.eorAbsY 0xFFFF) = .eor := by decide

theorem witness_ComparesSetOnlyFlags :
    Instr.mnemonic (.cmpIndY 0xFF) = .cmp ∧ Instr.mnemonic (.cpxZp 0xFF) = .cpx ∧
      Instr.mnemonic (.cpyAbs 0) = .cpy := by decide

theorem witness_BitTestSetsZNV :
    Instr.mnemonic (.bitZp 0xFF) = .bit ∧ Instr.mnemonic (.bitAbs 0xFFFF) = .bit := by decide

theorem witness_ShiftsAndRotatesMoveOneBit :
    Instr.mnemonic .aslAcc = .asl ∧ Instr.mnemonic (.lsrAbsX 0xFFFF) = .lsr ∧ Instr.mnemonic (.rolZp 0) = .rol ∧
      Instr.mnemonic (.rorZpX 0xFF) = .ror := by decide

theorem witness_MemoryIncrementAndDecrementWrap :
    Instr.mnemonic (.incZpX 0xFF) = .inc ∧ Instr.mnemonic (.decAbsX 0xFFFF) = .dec := by decide

/-- Both ends of the range of the offset, taken and not taken. -/
theorem witness_BranchesTakeTheTargetOnTheirCondition :
    ((-128 ≤ (-128 : Int) ∧ (-128 : Int) ≤ 127) ∧ -128 ≤ (127 : Int) ∧ (127 : Int) ≤ 127) ∧
      exec (.bne (-128)) busy = .next { busy with pc := 0x7F80 } ∧ exec (.beq 127) busy = .next busy :=
  ⟨by decide, rfl, rfl⟩

theorem witness_JmpSetsThePc :
    Instr.mnemonic (.jmpAbs 0xFFFF) = .jmp ∧ Instr.mnemonic (.jmpInd 0x30FF) = .jmp := by decide

theorem witness_NopOnlyAdvancesThePc : NoService busy ∧ busy.read busy.pc = 0xEA := by
  unfold NoService
  decide +kernel

theorem witness_IndirectReadsItsPointerInOnePage : Operand.mode (Instr.operand (.jmpInd 0x30FF)) = .indirect := by
  decide

theorem witness_RelativeTargetIsSigned : Operand.mode (Instr.operand (.bvs (-128))) = .relative := by decide

/-- Each of the four modes does report a cross. -/
theorem witness_OnlyFourModesReportAPageCross :
    (busy.resolve (.memory (.absoluteX 0x12FF))).2 = true ∧
      (busy.resolve (.memory (.absoluteY 0xFFFF))).2 = true ∧
      ((start 0x8000 [] [(0x0010, 0xFF)]).resolve (.memory (.indirectY 0x10))).2 = false ∧
      (({ start 0x8000 [] [(0x0010, 0xFF)] with y := 1 } : State).resolve (.memory (.indirectY 0x10))).2 = true ∧
      (busy.resolve (.relative (-1))).2 = true := by
  decide +kernel

/-- One address reached in two modes, the one reporting a cross and the other none. -/
theorem witness_OnlyFourModesReportAPageCross_same_operand :
    Instr.mnemonic (.ldaAbsX 0x12FF) = Instr.mnemonic (.ldaAbs 0x13FE) ∧
      (busy.resolve (Instr.operand (.ldaAbsX 0x12FF))).1 = (busy.resolve (Instr.operand (.ldaAbs 0x13FE))).1 ∧
      (busy.resolve (Instr.operand (.ldaAbsX 0x12FF))).2 ≠ (busy.resolve (Instr.operand (.ldaAbs 0x13FE))).2 := by
  decide +kernel

theorem witness_InterruptEntriesShareOneShape :
    ({ busy with nmiPending := true } : State).nmiPending = true ∧
      ({ busy with irqPending := true } : State).nmiPending = false ∧
      ({ busy with irqPending := true } : State).irqPending = true ∧
      ({ busy with irqPending := true } : State).flags.i = false := by
  decide +kernel

/-- Both requests pending; and a masked IRQ before a legal opcode. -/
theorem witness_MaskedIrqStaysLatched :
    (let s : State := { busy with nmiPending := true, irqPending := true }
     s.nmiPending = true ∧ s.irqPending = true) ∧
      let s : State := { busy with irqPending := true, flags := { busy.flags with i := true } }
      s.nmiPending = false ∧ s.irqPending = true ∧ s.flags.i = true ∧ s.read s.pc ∉ illegalOpcodes := by
  decide +kernel

/-- Latched behind I = 1, as before a CLI, and behind I = 0, as before a SEI. -/
theorem witness_FlagIChangeTakesEffectAtTheNextStep :
    (let s : State := { busy with irqPending := true, flags := { busy.flags with i := true } }
     s.nmiPending = false ∧ s.irqPending = true) ∧
      let s : State := { busy with irqPending := true }
      s.nmiPending = false ∧ s.irqPending = true := by
  decide +kernel

/-- The stack wraps in the entry: SP = 0x00. -/
theorem witness_RtiUndoesAnInterruptEntry :
    (let s : State := { busy with nmiPending := true }
     s.nmiPending = true ∧ s.sp = 0x00) ∧
      let s : State := { busy with irqPending := true }
      s.nmiPending = false ∧ s.irqPending = true ∧ s.flags.i = false := by
  decide +kernel

/-- An illegal opcode; and, for the other clause, a legal opcode and an illegal one behind an NMI. -/
theorem witness_StepFaultsExactlyOnAnIllegalOpcode :
    (NoService (start 0xFFFF [0xFF]) ∧ (start 0xFFFF [0xFF]).read 0xFFFF ∈ illegalOpcodes) ∧
      ¬(NoService busy ∧ busy.read busy.pc ∈ illegalOpcodes) ∧
      ¬(NoService { start 0x8000 [0x02] with nmiPending := true } ∧ (0x02 : Byte) ∈ illegalOpcodes) := by
  unfold NoService
  decide +kernel

theorem witness_IllegalOpcodesAreTheListed105 :
    (0x02 : Byte) ∈ illegalOpcodes ∧ (0xFF : Byte) ∈ illegalOpcodes ∧ (0x00 : Byte) ∉ illegalOpcodes := by
  decide +kernel

/-- One, two and three bytes, at the ends of the address space. -/
theorem witness_StepRunsTheDecodedInstruction :
    (NoService busy ∧ decode (busy.bytesAt busy.pc 3) = .ok .nop [0x00, 0x00]) ∧
      (NoService (start 0xFFFF [0xA9, 0x80]) ∧
        decode ((start 0xFFFF [0xA9, 0x80]).bytesAt 0xFFFF 3) = .ok (.ldaImm 0x80) [0x00]) ∧
      NoService (start 0xFFFE [0xAD, 0x34, 0x12]) ∧
        decode ((start 0xFFFE [0xAD, 0x34, 0x12]).bytesAt 0xFFFE 3) = .ok (.ldaAbs 0x1234) [] := by
  unfold NoService
  decide +kernel

theorem witness_DecodeOfEncodeIsTheInstruction :
    Instr.wellFormed (.beq (-128)) = true ∧ Instr.wellFormed (.beq 127) = true ∧
      Instr.wellFormed (.jmpInd 0x30FF) = true := by decide

theorem witness_EveryDecodedWordIsAnEncoding :
    decode [0xD0, 0x80, 0xEA] = .ok (.bne (-128)) [0xEA] ∧ decode [0x00] = .ok .brk [] := by decide +kernel

theorem witness_StepKeepsTheInvariant :
    State.Inv busy ∧ after busy (fun t => t) = some { busy with pc := 0x8001 } := by
  unfold State.Inv
  decide +kernel

theorem witness_ReachableStatesHaveTheInvariant : State.Reachable State.reset :=
  ⟨[], [.powerOn, .reset], by decide, by decide⟩

/-- Two memories made by writes in different orders, one of a byte that is written and then cleared. -/
theorem witness_CanonicalMemoriesAgreeOnlyIfEqual :
    let m := (Memory.write [] 0x0010 0x01).write 0xFFFF 0x02
    let m' := ((Memory.write [] 0xFFFF 0x02).write 0x0000 0x05).write 0x0000 0x00 |>.write 0x0010 0x01
    m.wf ∧ m'.wf ∧ ∀ addr : Word, m.read addr = m'.read addr := by
  refine ⟨by decide, by decide, fun addr => ?_⟩
  exact congrArg (fun m : Memory => m.read addr) (by decide)

theorem witness_StepWritesAreItsBusWrites :
    step (start 0x8000 [0x85, 0x10]) = .next { start 0x8000 [0x85, 0x10] with pc := 0x8002 } := rfl

/-- The reads of a step, checked one by one against another state. -/
theorem reads_agree {s s' : State}
    (h : ((stepAccesses s).all fun access =>
      match access with
      | .read addr v => decide (s'.read addr = v)
      | .write _ _ => true) = true) :
    ∀ (addr : Word) (v : Byte), Access.read addr v ∈ stepAccesses s → s'.read addr = v :=
  fun _ _ hm => of_decide_eq_true (List.all_eq_true.1 h _ hm)

/-- Two memories that differ only where the step does not read: a step that answers a state, and one that faults. -/
theorem witness_StepDependsOnlyOnTheBytesItReads :
    (let s := start 0x8000 [0xA5, 0x10] [(0x0010, 0x99)]
     let s' := s.write 0x0011 0x77
     SameButMemory s s' ∧ (∀ (addr : Word) (v : Byte), Access.read addr v ∈ stepAccesses s → s'.read addr = v) ∧
       step s = .next { s with a := 0x99, pc := 0x8002, flags := { s.flags with n := true } }) ∧
      let s := start 0x8000 [0x02]
      let s' := s.write 0x8001 0x77
      SameButMemory s s' ∧ (∀ (addr : Word) (v : Byte), Access.read addr v ∈ stepAccesses s → s'.read addr = v) ∧
        step s = .fault (.illegalOpcode 0x02 0x8000) :=
  ⟨⟨rfl, reads_agree (by decide +kernel), rfl⟩, rfl, reads_agree (by decide +kernel), rfl⟩

/-- For each kind of state an instruction that does change it. -/
theorem witness_RegistersAndMemoryHaveTheirWriters :
    (exec .txa busy = .next (busy.loadA 0xFF) ∧ exec .inx busy = .next (busy.loadX 0x00) ∧
        exec .dey busy = .next (busy.loadY 0x00) ∧ exec .pha busy = .next (busy.push 0x80) ∧
        exec (.jmpAbs 0) busy = .next { busy with pc := 0 }) ∧
      (busy.loadA 0xFF).a ≠ busy.a ∧ (busy.loadX 0x00).x ≠ busy.x ∧ (busy.loadY 0x00).y ≠ busy.y ∧
        (busy.push 0x80).sp ≠ busy.sp ∧ (busy.push 0x80).read 0x0100 ≠ busy.read 0x0100 ∧ (0 : Word) ≠ busy.pc :=
  ⟨⟨rfl, rfl, rfl, rfl, rfl⟩, by decide +kernel⟩

/-- For each flag but B an instruction that does change it. -/
theorem witness_FlagsHaveTheirWriters :
    let ones : Flags := { n := false, v := true, b := false, d := true, i := true, z := true, c := true }
    (exec .plp { busy with sp := 0xFF, mem := [(0x0100, 0x4F)] } =
          .next { busy with sp := 0x00, mem := [(0x0100, 0x4F)], flags := ones } ∧
        exec .tax busy = .next (busy.loadX 0x80)) ∧
      ones.v ≠ busy.flags.v ∧ ones.d ≠ busy.flags.d ∧ ones.i ≠ busy.flags.i ∧ ones.z ≠ busy.flags.z ∧
        ones.c ≠ busy.flags.c ∧ (busy.loadX 0x80).flags.n ≠ busy.flags.n :=
  ⟨⟨rfl, rfl⟩, by decide +kernel⟩

/-- An instruction that is no branch; a step that executes a branch; an NMI entry and an IRQ entry. -/
theorem witness_CyclesFollowTheClassTable :
    Operand.mode (Instr.operand (.ldaAbsX 0x12FF)) ≠ .relative ∧
      (NoService (start 0x80F0 [0xD0, 0x7F]) ∧ State.fetch (start 0x80F0 [0xD0, 0x7F]) = .ok (.bne 127) []) ∧
      ¬NoService { busy with nmiPending := true } ∧ ¬NoService { busy with irqPending := true } := by
  unfold NoService
  decide +kernel

/-- Each request, at the stack pointer where the entry wraps. -/
theorem witness_InterruptEntriesOnTheBus :
    (let s : State := { busy with nmiPending := true, sp := 0x01 }
     s.nmiPending = true) ∧
      let s : State := { busy with irqPending := true, sp := 0x01 }
      s.nmiPending = false ∧ s.irqPending = true ∧ s.flags.i = false := by
  decide +kernel

/-- Each end of a run does occur, where they meet too: at the stop address no step is called, so an illegal opcode there
raises nothing, and no step left goes before it elsewhere. -/
theorem witness_RunsEndAsTheLaunchSays :
    ((start 0x8000 [0x02]).run (some 0x8000) 0).2 = .reached ∧ ((start 0x8000 [0x02]).run (some 0x8000) 1).2 = .reached ∧
      ((start 0x8000 [0x02]).run none 0).2 = .outOfSteps ∧
      ((start 0x8000 [0x02]).run none 1).2 = .illegalOpcode 0x02 0x8000 ∧ (busy.run (some 0x8001) 1).2 = .reached :=
  ⟨rfl, rfl, rfl, rfl, rfl⟩

end Sys2Proof.Tests
end

section
/-! PROOFS. A step from two states that differ in memory at most. Where the second state answers every read of the
first one's step alike, the two steps are the same but for the memory that neither has read (R7, R49). The relation is
carried through the fetch, the resolver, the effect of the instruction and an interrupt entry, one lemma each. -/

namespace Sys2Proof.Spec

open Sys2Proof.Machine

/-! ### The fields of two states that differ in memory at most -/

section

variable {s s' : State} (h : SameButMemory s s')
include h

theorem SameButMemory.a : s'.a = s.a := by rw [h]
theorem SameButMemory.x : s'.x = s.x := by rw [h]
theorem SameButMemory.y : s'.y = s.y := by rw [h]
theorem SameButMemory.sp : s'.sp = s.sp := by rw [h]
theorem SameButMemory.pc : s'.pc = s.pc := by rw [h]
theorem SameButMemory.flags : s'.flags = s.flags := by rw [h]

end

end Sys2Proof.Spec

namespace Sys2Proof.Machine

open Sys2Proof.Spec

/-! ### What a step, its bus accesses and its cycle number are, by what the step does (R200, R49, R235) -/

theorem step_of_nmi {s : State} (h : s.service = .nmi) :
    step s = .next s.nmiEntry ∧ stepAccesses s = entryAccesses s s.nmiEntry nmiVector ∧
      stepCycles s = some entryCycles := by
  simp only [step, stepAccesses, stepCycles, h, and_self]

theorem step_of_irq {s : State} (h : s.service = .irq) :
    step s = .next s.irqEntry ∧ stepAccesses s = entryAccesses s s.irqEntry irqVector ∧
      stepCycles s = some entryCycles := by
  simp only [step, stepAccesses, stepCycles, h, and_self]

theorem step_of_fetch_ok {s t : State} {i : Instr} {rest : List Byte} (h : s.service = .none)
    (hf : s.fetch = .ok i rest) (ht : exec i s.fetched = .next t) :
    step s = .next t ∧
      stepAccesses s = fetchAccesses s ++ pointerAccesses s.fetched i.operand ++ dataAccesses i s.fetched t ∧
      stepCycles s = some (instrCycles i s.fetched) := by
  simp only [step, stepAccesses, stepCycles, h, hf, ht, and_self]

theorem step_of_fetch_illegal {s : State} {op : Byte} (h : s.service = .none) (hf : s.fetch = .illegalOpcode op) :
    step s = .fault (.illegalOpcode op s.pc) ∧ stepAccesses s = fetchAccesses s ∧ stepCycles s = none := by
  simp only [step, stepAccesses, stepCycles, h, hf, and_self]

/-! ### Answering a list of reads -/

/-- Every read of the list finds in this state the byte it found before; writes are not asked about. -/
def State.Answers (s : State) (accesses : List Access) : Prop :=
  ∀ addr v, Access.read addr v ∈ accesses → s.read addr = v

variable {s s' : State}

@[simp] theorem State.answers_nil : s'.Answers [] := by simp [State.Answers]

@[simp] theorem State.answers_append {l l' : List Access} :
    s'.Answers (l ++ l') ↔ s'.Answers l ∧ s'.Answers l' := by
  simp only [State.Answers, List.mem_append, or_imp, forall_and]

@[simp] theorem State.answers_reads_cons {addr : Word} {l : List Access} :
    s'.Answers (s.reads addr :: l) ↔ s'.mem.read addr = s.mem.read addr ∧ s'.Answers l := by
  simp only [State.Answers, State.reads, List.mem_cons, or_imp, forall_and, Access.read.injEq, State.read_eq]
  exact and_congr_left' ⟨fun h => h _ _ ⟨rfl, rfl⟩, by rintro h _ _ ⟨rfl, rfl⟩; exact h⟩

@[simp] theorem State.answers_map_reads {f : Nat → Word} {n : Nat} :
    s'.Answers ((List.range n).map fun k => s.reads (f k)) ↔ ∀ k < n, s'.mem.read (f k) = s.mem.read (f k) := by
  constructor
  · intro h k hk
    exact h _ _ (List.mem_map.2 ⟨k, List.mem_range.2 hk, rfl⟩)
  · intro h addr v hm
    obtain ⟨k, hk, e⟩ := List.mem_map.1 hm
    cases e
    exact h k (List.mem_range.1 hk)

/-- Reads that find the same bytes are the same accesses. -/
theorem State.reads_congr {addr : Word} (h : s'.mem.read addr = s.mem.read addr) : s'.reads addr = s.reads addr :=
  congrArg (Access.read addr) h

/-- Writes that leave the same bytes are the same accesses. -/
theorem State.wrote_congr {addr : Word} (h : s'.mem.read addr = s.mem.read addr) : s'.wrote addr = s.wrote addr :=
  congrArg (Access.write addr) h

/-! ### The service check, the fetch and the resolver -/

/-- The service check reads latches and flags, no memory (R200 (1)). -/
theorem State.service_congr (h : SameButMemory s s') : s'.service = s.service := by
  rw [h]; rfl

theorem instrLength_pos (op : Byte) : 0 < instrLength op := by
  unfold instrLength
  split <;> simp [Entry.length]

/-- A fetch that finds the same bytes finds the same instruction, by the same reads (R200 (2) and (3)). -/
theorem State.fetch_congr (h : SameButMemory s s') (ha : s'.Answers (fetchAccesses s)) :
    s'.fetch = s.fetch ∧ fetchAccesses s' = fetchAccesses s ∧ SameButMemory s.fetched s'.fetched := by
  have hbyte := State.answers_map_reads.1 ha
  have hop : s'.opcodeByte = s.opcodeByte := by
    simpa [State.opcodeByte, h.pc] using hbyte 0 (instrLength_pos _)
  refine ⟨?_, ?_, ?_⟩
  · simp only [State.fetch, State.instrBytes, State.bytesAt, hop, h.pc]
    exact congrArg decode (List.map_congr_left fun k hk => hbyte k (List.mem_range.1 hk))
  · simp only [fetchAccesses, hop, h.pc]
    exact List.map_congr_left fun k hk => State.reads_congr (hbyte k (List.mem_range.1 hk))
  · simp only [State.fetched, hop, h.pc]
    rw [h]; rfl

/-- The resolver reads memory for its pointer bytes alone (R70, R80 to R82). -/
theorem State.resolve_congr {op : Operand} (h : SameButMemory s s') (ha : s'.Answers (pointerAccesses s op)) :
    s'.resolve op = s.resolve op ∧ pointerAccesses s' op = pointerAccesses s op := by
  cases op with
  | implied | accumulator | immediate _ => exact ⟨rfl, rfl⟩
  | relative _ => rw [h]; exact ⟨rfl, rfl⟩
  | memory m =>
    cases m with
    | zeroPage _ | zeroPageX _ | zeroPageY _ | absolute _ | absoluteX _ | absoluteY _ => rw [h]; exact ⟨rfl, rfl⟩
    | indirect p | indirectX z | indirectY z =>
      simp only [pointerAccesses, State.answers_reads_cons, State.answers_nil, and_true] at ha
      obtain ⟨hlo, hhi⟩ := ha
      simp only [State.resolve, State.memoryCrossed, State.effectiveAddress, State.samePagePointer,
        State.zeroPagePointer, pointerAccesses, State.reads, State.read_eq, h.x, h.y, hlo, hhi, and_self]

/-- The cycle number depends on the resolved operand and the flags (R235). -/
theorem instrCycles_congr {i : Instr} (h : SameButMemory s s') (hr : s'.resolve i.operand = s.resolve i.operand) :
    instrCycles i s' = instrCycles i s := by
  simp only [instrCycles, hr, h.flags]

/-! ### The effect of an instruction -/

/-- The data, stack and vector accesses of a role on a resolved operand (R49 (4) to (6)). -/
def BusRole.accesses (s t : State) : BusRole → Resolved → List Access
  | .readData, .addr a => [s.reads a]
  | .writeData, .addr a => [t.wrote a]
  | .modifyData, .addr a => [s.reads a, t.wrote a]
  | .readData, _ | .writeData, _ | .modifyData, _ => []
  | .pushes n, _ => pushAccesses s t n
  | .pulls n, _ => pullAccesses s n
  | .entry, _ => entryAccesses s t irqVector
  | .quiet, _ => []

theorem dataAccesses_eq_accesses (i : Instr) (s t : State) :
    dataAccesses i s t = (busRole i.mnemonic).accesses s t (s.resolve i.operand).1 := by
  unfold dataAccesses
  cases busRole i.mnemonic <;> cases i.operand <;> rfl

variable {op : Resolved}

/-- A read of the operand that is answered alike gives the same value by the same access (R86). -/
theorem State.valueOf_congr (h : SameButMemory s s') {t t' : State}
    (ha : s'.Answers (BusRole.readData.accesses s t op)) :
    s'.valueOf op = s.valueOf op ∧ BusRole.readData.accesses s' t' op = BusRole.readData.accesses s t op := by
  cases op with
  | addr a =>
    have hread : s'.mem.read a = s.mem.read a := (State.answers_reads_cons.1 ha).1
    exact ⟨by simp [State.valueOf, hread], by simp only [BusRole.accesses, State.reads_congr hread]⟩
  | none | acc | imm _ | rel _ => rw [h]; exact ⟨rfl, rfl⟩

/-- A store reads nothing, and writes the same byte (R86). -/
theorem State.storeResolved_congr (h : SameButMemory s s') (v : Byte) :
    SameButMemory (s.storeResolved v op) (s'.storeResolved v op) ∧
      BusRole.writeData.accesses s' (s'.storeResolved v op) op =
        BusRole.writeData.accesses s (s.storeResolved v op) op := by
  cases op with
  | addr a =>
    refine ⟨by rw [h]; rfl, ?_⟩
    simp [BusRole.accesses, State.storeResolved, State.wrote]
  | none | acc | imm _ | rel _ => exact ⟨h, rfl⟩

/-- A read-modify-write whose read is answered alike writes the same byte and flags (R144). -/
theorem State.modifyResolved_congr (h : SameButMemory s s') (f : Byte → Flags → Byte × Flags)
    (ha : s'.Answers (BusRole.modifyData.accesses s (s.modifyResolved f op) op)) :
    SameButMemory (s.modifyResolved f op) (s'.modifyResolved f op) ∧
      BusRole.modifyData.accesses s' (s'.modifyResolved f op) op =
        BusRole.modifyData.accesses s (s.modifyResolved f op) op := by
  cases op with
  | addr a =>
    have hread : s'.read a = s.read a := (State.answers_reads_cons.1 ha).1
    refine ⟨?_, ?_⟩
    · simp only [State.modifyResolved, hread, h.flags]
      rw [h]; rfl
    · simp only [BusRole.accesses, State.modifyResolved, State.reads, State.wrote, hread, h.flags]
      simp
  | acc => rw [h]; exact ⟨rfl, rfl⟩
  | none | imm _ | rel _ => exact ⟨h, rfl⟩

/-- A jump reads nothing more (R160, R169). -/
theorem State.jumpResolved_congr (h : SameButMemory s s') :
    SameButMemory (s.jumpResolved op) (s'.jumpResolved op) := by
  rw [h]; cases op <;> rfl

/-- A branch taken or not: the condition is a flag (R160). -/
theorem State.ite_jumpResolved_congr (h : SameButMemory s s') (c : Bool) :
    SameButMemory (if c then s.jumpResolved op else s) (if c then s'.jumpResolved op else s') := by
  cases c
  · exact h
  · exact State.jumpResolved_congr h

/-- A push reads nothing, and writes the same byte (R38). -/
theorem State.push_congr (h : SameButMemory s s') (v : Byte) :
    SameButMemory (s.push v) (s'.push v) ∧ pushAccesses s' (s'.push v) 1 = pushAccesses s (s.push v) 1 := by
  refine ⟨by rw [h]; rfl, ?_⟩
  simp [pushAccesses, State.wrote, h.sp]

/-- A word push reads nothing, and writes the same two bytes (R39). -/
theorem State.pushWord_congr (h : SameButMemory s s') (w : Word) :
    SameButMemory (s.pushWord w) (s'.pushWord w) ∧
      pushAccesses s' (s'.pushWord w) 2 = pushAccesses s (s.pushWord w) 2 := by
  refine ⟨by rw [h]; rfl, ?_⟩
  simp [pushAccesses, List.range_succ, State.wrote, Memory.read_write, stackSlot_inj, h.sp]

/-- A jump after a push leaves the bytes pushed (R170). -/
theorem pushAccesses_jumpResolved (t : State) (n : Nat) :
    pushAccesses s (t.jumpResolved op) n = pushAccesses s t n := by
  cases op <;> rfl

/-- Pulls that are answered alike are the same accesses (R38). -/
theorem pullAccesses_congr {n : Nat} (h : SameButMemory s s') (ha : s'.Answers (pullAccesses s n)) :
    pullAccesses s' n = pullAccesses s n := by
  simp only [pullAccesses, h.sp]
  exact List.map_congr_left fun k hk => State.reads_congr (State.answers_map_reads.1 ha k (List.mem_range.1 hk))

/-- A pull of at least one byte that is answered alike gives the same byte (R38). -/
theorem State.top_congr {n : Nat} (h : SameButMemory s s') (ha : s'.Answers (pullAccesses s (n + 1))) :
    s'.top = s.top := by
  simpa [State.top, h.sp] using State.answers_map_reads.1 ha 0 n.succ_pos

/-- After one pull the next ones are the pulls that were left (R38). -/
theorem State.answers_pull_succ {n : Nat} (ha : s'.Answers (pullAccesses s (n + 1))) :
    s'.pop.Answers (pullAccesses s.pop n) := by
  refine State.answers_map_reads.2 fun k hk => ?_
  have := State.answers_map_reads.1 ha (k + 1) (Nat.succ_lt_succ hk)
  simpa [BitVec.ofNat_add, add_assoc, add_comm, add_left_comm] using this

/-- Pulls change the stack pointer only (R38). -/
theorem State.pop_congr (h : SameButMemory s s') : SameButMemory s.pop s'.pop := by
  rw [h]; rfl

/-- A pull of at least one word that is answered alike gives the same word (R39). -/
theorem State.topWord_congr {n : Nat} (h : SameButMemory s s') (ha : s'.Answers (pullAccesses s (n + 2))) :
    s'.topWord = s.topWord := by
  simp only [State.topWord, State.top_congr h ha,
    State.top_congr (State.pop_congr h) (State.answers_pull_succ ha)]

/-- An entry through a vector that is answered alike pushes the same bytes and goes to the same address: no byte of the
vector is a stack slot (R207, R41). -/
theorem State.interruptEntry_congr {vector : Word} (h : SameButMemory s s') (b4 : Bool)
    (hv : hiByte vector = 0xFF ∧ hiByte (vector + 1) = 0xFF)
    (ha : s'.Answers (entryAccesses s (s.interruptEntry vector b4) vector)) :
    SameButMemory (s.interruptEntry vector b4) (s'.interruptEntry vector b4) ∧
      entryAccesses s' (s'.interruptEntry vector b4) vector =
        entryAccesses s (s.interruptEntry vector b4) vector := by
  have hlo := fun p => stackSlot_ne_of_hiByte hv.1 p
  have hhi := fun p => stackSlot_ne_of_hiByte hv.2 p
  simp only [entryAccesses, State.answers_append, State.answers_reads_cons, State.answers_nil, and_true,
    State.interruptEntry_read, hlo, hhi, if_false] at ha
  obtain ⟨-, hread, hread'⟩ := ha
  have hword : s'.readWord vector = s.readWord vector := by
    simp only [State.readWord, State.read_eq, hread, hread']
  refine ⟨?_, ?_⟩
  · rw [State.interruptEntry_spec s' _ _ hv.1 hv.2, State.interruptEntry_spec s _ _ hv.1 hv.2, hword]
    rw [h]; rfl
  · simp only [entryAccesses, pushAccesses, State.wrote, State.reads, State.read_eq, State.interruptEntry_read,
      h.sp, h.pc, h.flags, hlo, hhi, hread, hread']
    have htwo : s.sp - 2#8 = s.sp - 1#8 - 1#8 := by bv_omega
    simp [List.range_succ, stackSlot_inj, htwo]

/-- What an instruction does is the same, and so is what it does on the bus, where its reads are answered alike
(R101 to R193, R49 (4) to (6)). -/
theorem State.effect_congr (h : SameButMemory s s') (m : Mnemonic)
    (ha : s'.Answers ((busRole m).accesses s (s.effect op m) op)) :
    SameButMemory (s.effect op m) (s'.effect op m) ∧
      (busRole m).accesses s' (s'.effect op m) op = (busRole m).accesses s (s.effect op m) op := by
  cases m with
  | tax | txa | tay | tya | tsx | txs | inx | iny | dex | dey | clc | sec | cli | sei | clv | cld | sed | nop =>
    exact ⟨by rw [h]; rfl, rfl⟩
  | lda | ldx | ldy | adc | sbc | and | ora | eor | cmp | cpx | cpy | bit =>
    obtain ⟨hv, hacc⟩ := State.valueOf_congr h ha
    refine ⟨?_, hacc⟩
    simp only [State.effect, hv]
    rw [h]; rfl
  | sta | stx | sty =>
    simp only [State.effect, h.a, h.x, h.y]
    exact State.storeResolved_congr h _
  | asl | lsr | rol | ror | inc | dec => exact State.modifyResolved_congr h _ ha
  | beq | bne | bcc | bcs | bmi | bpl | bvc | bvs =>
    simp only [State.effect, h.flags]
    exact ⟨State.ite_jumpResolved_congr h _, rfl⟩
  | jmp => exact ⟨State.jumpResolved_congr h, rfl⟩
  | jsr =>
    obtain ⟨hpush, hacc⟩ := State.pushWord_congr h (s.pc - 1)
    simp only [State.effect, busRole, BusRole.accesses, pushAccesses_jumpResolved, h.pc]
    exact ⟨State.jumpResolved_congr hpush, hacc⟩
  | pha | php =>
    simp only [State.effect, h.a, h.flags]
    exact State.push_congr h _
  | pla | plp =>
    refine ⟨?_, pullAccesses_congr h ha⟩
    simp only [State.effect, State.top_congr h ha]
    rw [h]; rfl
  | rts =>
    refine ⟨?_, pullAccesses_congr h ha⟩
    simp only [State.effect, State.topWord_congr h ha]
    rw [h]; rfl
  | rti =>
    refine ⟨?_, pullAccesses_congr h ha⟩
    have hword := State.topWord_congr (State.pop_congr h) (State.answers_pull_succ ha)
    simp only [State.effect, State.interruptReturn, State.top_congr h ha, hword]
    rw [h]; rfl
  | brk =>
    have h' : SameButMemory { s with pc := s.pc + 1 } { s' with pc := s'.pc + 1 } := by rw [h]; rfl
    exact State.interruptEntry_congr h' true irqVector_page ha

/-- An instruction whose reads are answered alike: the next state but for memory, and the accesses (R7, R49). -/
theorem exec_congr {i : Instr} {t : State} (h : SameButMemory s s') (hr : s'.resolve i.operand = s.resolve i.operand)
    (ht : exec i s = .next t) (ha : s'.Answers (dataAccesses i s t)) :
    ∃ t', exec i s' = .next t' ∧ SameButMemory t t' ∧ dataAccesses i s' t' = dataAccesses i s t := by
  obtain rfl : s.effect (s.resolve i.operand).1 i.mnemonic = t := by
    simpa only [exec_eq_effect, Host.Outcome.next.injEq] using ht
  simp only [dataAccesses_eq_accesses, exec_eq_effect, hr] at ha ⊢
  obtain ⟨hsame, hacc⟩ := State.effect_congr h _ ha
  exact ⟨_, rfl, hsame, hacc⟩

/-! ### The step -/

/-- The steps of two states are alike: the bus accesses, the cycle number, the next state but for memory, and the fault.
This is what `StepDependsOnlyOnTheBytesItReads` concludes. -/
def SameStep (s s' : State) : Prop :=
  stepAccesses s' = stepAccesses s ∧ stepCycles s' = stepCycles s ∧
    (∀ t, step s = .next t → ∃ t', step s' = .next t' ∧ SameButMemory t t') ∧
      ∀ f, step s = .fault f → step s' = .fault f

theorem SameStep.of_next {t t' : State} (hacc : stepAccesses s' = stepAccesses s)
    (hcyc : stepCycles s' = stepCycles s) (ht : step s = .next t) (ht' : step s' = .next t')
    (h : SameButMemory t t') : SameStep s s' := by
  refine ⟨hacc, hcyc, fun u hu => ⟨t', ht', ?_⟩, fun f hf => ?_⟩
  · rw [ht] at hu; cases hu; exact h
  · rw [ht] at hf; cases hf

theorem SameStep.of_fault {f : Fault} (hacc : stepAccesses s' = stepAccesses s)
    (hcyc : stepCycles s' = stepCycles s) (hf : step s = .fault f) (hf' : step s' = .fault f) : SameStep s s' := by
  refine ⟨hacc, hcyc, fun t ht => ?_, fun g hg => ?_⟩
  · rw [hf] at ht; cases ht
  · exact hf'.trans (hf.symm.trans hg)

/-- Two steps that are an interrupt entry, each in its own state with the request's latch cleared (R200, R207). -/
theorem sameStep_of_entry {u u' : State} {vector : Word} (h : SameButMemory u u')
    (hv : hiByte vector = 0xFF ∧ hiByte (vector + 1) = 0xFF)
    (hs : step s = .next (u.interruptEntry vector false) ∧
      stepAccesses s = entryAccesses u (u.interruptEntry vector false) vector ∧ stepCycles s = some entryCycles)
    (hs' : step s' = .next (u'.interruptEntry vector false) ∧
      stepAccesses s' = entryAccesses u' (u'.interruptEntry vector false) vector ∧ stepCycles s' = some entryCycles)
    (ha : u'.Answers (stepAccesses s)) : SameStep s s' := by
  obtain ⟨hstep, hacc, hcyc⟩ := hs
  obtain ⟨hstep', hacc', hcyc'⟩ := hs'
  rw [hacc] at ha
  obtain ⟨hsame, hentry⟩ := State.interruptEntry_congr h false hv ha
  exact .of_next (hacc'.trans (hentry.trans hacc.symm)) (hcyc'.trans hcyc.symm) hstep hstep' hsame

/-- The step that services an NMI (R203). -/
theorem sameStep_of_nmi (h : SameButMemory s s') (hn : s.service = .nmi) (ha : s'.Answers (stepAccesses s)) :
    SameStep s s' := by
  have hlatch : SameButMemory { s with nmiPending := false } { s' with nmiPending := false } := by rw [h]; rfl
  exact sameStep_of_entry hlatch nmiVector_page (step_of_nmi hn) (step_of_nmi ((State.service_congr h).trans hn)) ha

/-- The step that services an IRQ (R204). -/
theorem sameStep_of_irq (h : SameButMemory s s') (hn : s.service = .irq) (ha : s'.Answers (stepAccesses s)) :
    SameStep s s' := by
  have hlatch : SameButMemory { s with irqPending := false } { s' with irqPending := false } := by rw [h]; rfl
  exact sameStep_of_entry hlatch irqVector_page (step_of_irq hn) (step_of_irq ((State.service_congr h).trans hn)) ha

/-- The step that executes an instruction: fetch, resolver and effect in turn (R200 (2) to (5)). -/
theorem sameStep_of_fetch_ok {i : Instr} {rest : List Byte} (h : SameButMemory s s') (hn : s.service = .none)
    (hi : s.fetch = .ok i rest) (ha : s'.Answers (stepAccesses s)) : SameStep s s' := by
  obtain ⟨t, ht⟩ := exec_isNext i s.fetched
  obtain ⟨hs, hacc, hcyc⟩ := step_of_fetch_ok hn hi ht
  rw [hacc, State.answers_append, State.answers_append] at ha
  obtain ⟨⟨hafetch, hapointer⟩, hadata⟩ := ha
  obtain ⟨hfetch, hfacc, hfetched⟩ := State.fetch_congr h hafetch
  -- Fetching moves PC alone, so the fetched state answers what the state answers.
  obtain ⟨hres, hpacc⟩ := State.resolve_congr (s' := s'.fetched) hfetched hapointer
  obtain ⟨t', ht', hsame, hdacc⟩ := exec_congr (s' := s'.fetched) hfetched hres ht hadata
  obtain ⟨hs', hacc', hcyc'⟩ := step_of_fetch_ok ((State.service_congr h).trans hn) (hfetch.trans hi) ht'
  refine .of_next ?_ ?_ hs hs' hsame
  · rw [hacc, hacc', hfacc, hpacc, hdacc]
  · rw [hcyc, hcyc', instrCycles_congr hfetched hres]

/-- The step that finds an illegal opcode: one read, and the same error (R202). -/
theorem sameStep_of_fetch_illegal {op : Byte} (h : SameButMemory s s') (hn : s.service = .none)
    (hi : s.fetch = .illegalOpcode op) (ha : s'.Answers (stepAccesses s)) : SameStep s s' := by
  obtain ⟨hs, hacc, hcyc⟩ := step_of_fetch_illegal hn hi
  rw [hacc] at ha
  obtain ⟨hfetch, hfacc, -⟩ := State.fetch_congr h ha
  obtain ⟨hs', hacc', hcyc'⟩ := step_of_fetch_illegal ((State.service_congr h).trans hn) (hfetch.trans hi)
  exact .of_fault (hacc'.trans (hfacc.trans hacc.symm)) (hcyc'.trans hcyc.symm) hs (h.pc ▸ hs')

/-- Settles O52, by the case of the step: an NMI entry, an IRQ entry, an instruction, or an illegal opcode. -/
theorem stepDependsOnlyOnTheBytesItReads : Obligations.StepDependsOnlyOnTheBytesItReads := by
  intro s s' h ha
  change SameStep s s'
  cases hn : s.service with
  | nmi => exact sameStep_of_nmi h hn ha
  | irq => exact sameStep_of_irq h hn ha
  | none =>
    rcases s.fetch_cases with ⟨i, hi⟩ | ⟨-, hi⟩
    · exact sameStep_of_fetch_ok h hn hi ha
    · exact sameStep_of_fetch_illegal h hn hi ha

end Sys2Proof.Machine
end

section
/-! PROOFS. The statements about the state (10_state.md): what each instruction may write, said once and read off field
by field, the invariant along every sequence of transactions, the status byte, and the transactions that are no step. -/

namespace Sys2Proof.Machine

open Sys2Proof.Spec

/-! ### What an instruction may write (R14, R25, R26) -/

/-- `s` with what the mnemonic may write taken from `t` and everything else left: the tables of R25 and R26 by row. A
shift or rotate writes A on the accumulator and memory otherwise. -/
def State.withWritten (s t : State) (o : Operand) : Mnemonic → State
  | .lda | .txa | .tya | .and | .ora | .eor =>
    { s with a := t.a, flags := { s.flags with n := t.flags.n, z := t.flags.z } }
  | .ldx | .tax | .tsx | .inx | .dex => { s with x := t.x, flags := { s.flags with n := t.flags.n, z := t.flags.z } }
  | .ldy | .tay | .iny | .dey => { s with y := t.y, flags := { s.flags with n := t.flags.n, z := t.flags.z } }
  | .txs => { s with sp := t.sp, flags := { s.flags with n := t.flags.n, z := t.flags.z } }
  | .sta | .stx | .sty => { s with mem := t.mem }
  | .adc | .sbc =>
    { s with
      a := t.a, flags := { s.flags with n := t.flags.n, v := t.flags.v, z := t.flags.z, c := t.flags.c } }
  | .cmp | .cpx | .cpy => { s with flags := { s.flags with n := t.flags.n, z := t.flags.z, c := t.flags.c } }
  | .bit => { s with flags := { s.flags with n := t.flags.n, v := t.flags.v, z := t.flags.z } }
  | .asl | .lsr | .rol | .ror =>
    { s with
      a := if o = .accumulator then t.a else s.a, mem := if o = .accumulator then s.mem else t.mem,
      flags := { s.flags with n := t.flags.n, z := t.flags.z, c := t.flags.c } }
  | .inc | .dec => { s with mem := t.mem, flags := { s.flags with n := t.flags.n, z := t.flags.z } }
  | .beq | .bne | .bcc | .bcs | .bmi | .bpl | .bvc | .bvs | .jmp => { s with pc := t.pc }
  | .jsr => { s with sp := t.sp, pc := t.pc, mem := t.mem }
  | .rts => { s with sp := t.sp, pc := t.pc }
  | .pha | .php => { s with sp := t.sp, mem := t.mem }
  | .pla => { s with a := t.a, sp := t.sp, flags := { s.flags with n := t.flags.n, z := t.flags.z } }
  | .plp => { s with sp := t.sp, flags := { t.flags with b := s.flags.b } }
  | .rti => { s with sp := t.sp, pc := t.pc, flags := { t.flags with b := s.flags.b } }
  | .brk => { s with sp := t.sp, pc := t.pc, flags := { s.flags with i := t.flags.i }, mem := t.mem }
  | .clc | .sec => { s with flags := { s.flags with c := t.flags.c } }
  | .cli | .sei => { s with flags := { s.flags with i := t.flags.i } }
  | .clv => { s with flags := { s.flags with v := t.flags.v } }
  | .cld | .sed => { s with flags := { s.flags with d := t.flags.d } }
  | .nop => s

/-- Only the shifts and rotates have an accumulator form (R59, R72). -/
theorem Instr.mnemonic_of_operand_accumulator {i : Instr} (h : i.operand = .accumulator) :
    i.mnemonic ∈ [Mnemonic.asl, .lsr, .rol, .ror] := by
  cases i with
  | aslAcc | lsrAcc | rolAcc | rorAcc => decide
  | _ => cases h

variable {s t : State} {op : Resolved}

/-- A jump writes PC and nothing else (R169). -/
theorem State.jumpResolved_eq : s.jumpResolved op = { s with pc := (s.jumpResolved op).pc } := by
  cases op <;> rfl

/-- A branch, taken or not, writes PC and nothing else (R160). -/
theorem State.ite_jumpResolved_eq (p : Prop) [Decidable p] :
    (if p then s.jumpResolved op else s) = { s with pc := (if p then s.jumpResolved op else s).pc } := by
  split
  · exact State.jumpResolved_eq
  · rfl

/-- An instruction writes at most what its mnemonic may (R25, R26). -/
theorem State.effect_eq_withWritten {o : Operand} {m : Mnemonic}
    (h : o = .accumulator → m ∈ [Mnemonic.asl, .lsr, .rol, .ror]) :
    s.effect (s.resolve o).1 m = s.withWritten (s.effect (s.resolve o).1 m) o m := by
  cases m with
  | sta | stx | sty | asl | lsr | rol | ror => cases o <;> rfl
  | inc | dec =>
    cases o with
    | accumulator => exact absurd (h rfl) (by decide)
    | _ => rfl
  | beq | bne | bcc | bcs | bmi | bpl | bvc | bvs => exact State.ite_jumpResolved_eq _
  | jmp | jsr => cases o <;> rfl
  | _ => rfl

/-- The state an instruction answers is its effect. -/
theorem effect_of_exec {i : Instr} (h : exec i s = .next t) : s.effect (s.resolve i.operand).1 i.mnemonic = t := by
  simpa only [exec_eq_effect, Host.Outcome.next.injEq] using h

/-- The state an instruction answers differs from the one before at most where R25 and R26 name a writer. -/
theorem exec_withWritten {i : Instr} (h : exec i s = .next t) : t = s.withWritten t i.operand i.mnemonic := by
  obtain rfl := effect_of_exec h
  exact State.effect_eq_withWritten Instr.mnemonic_of_operand_accumulator

/-- Settles O53: each clause is a column of `State.withWritten`, read off for every mnemonic. -/
theorem registersAndMemoryHaveTheirWriters : Obligations.RegistersAndMemoryHaveTheirWriters := by
  intro i s t h
  rw [exec_withWritten h]
  generalize i.mnemonic = m
  cases m with
  | asl | lsr | rol | ror =>
    by_cases ho : i.operand = .accumulator <;> simp [State.withWritten, ho]
  | _ => simp [State.withWritten]

/-- Settles O54: each clause is a column of `State.withWritten`, read off for every mnemonic. -/
theorem flagsHaveTheirWriters : Obligations.FlagsHaveTheirWriters := by
  intro i s t h
  rw [exec_withWritten h]
  generalize i.mnemonic = m
  cases m <;> simp [State.withWritten]

/-! ### The invariant -/

/-- Every instruction keeps memory in canonical form: memory changes by stores and pushes alone (R30, R86). -/
theorem State.effect_wf {m : Mnemonic} (h : s.mem.wf) : (s.effect op m).mem.wf := by
  cases m with
  | sta | stx | sty | asl | lsr | rol | ror | inc | dec =>
    cases op with
    | addr a => exact Memory.wf_write _ _ h
    | _ => exact h
  | pha | php => exact Memory.wf_write _ _ h
  | jsr => cases op <;> exact Memory.wf_write _ _ (Memory.wf_write _ _ h)
  | brk => exact State.interruptEntry_wf _ _ _ h
  | beq | bne | bcc | bcs | bmi | bpl | bvc | bvs =>
    simp only [State.effect]
    rw [State.ite_jumpResolved_eq]
    exact h
  | jmp => cases op <;> exact h
  | _ => exact h

theorem exec_wf {i : Instr} (h : s.mem.wf) (ht : exec i s = .next t) : t.mem.wf := by
  obtain rfl := effect_of_exec ht
  exact State.effect_wf h

/-- Every instruction keeps the invariant (R19). -/
theorem exec_inv {i : Instr} (h : s.Inv) (ht : exec i s = .next t) : t.Inv := by
  obtain ⟨hmem, hb⟩ := h
  obtain ⟨-, -, -, -, -, hkept⟩ := flagsHaveTheirWriters i s t ht
  exact ⟨exec_wf hmem ht, hkept.trans hb⟩

/-- Every interrupt entry keeps the invariant (R19, R207). -/
theorem State.interruptEntry_inv {vector : Word} {b4 : Bool} (h : s.Inv) : (s.interruptEntry vector b4).Inv := by
  obtain ⟨hmem, hb⟩ := h
  exact ⟨State.interruptEntry_wf _ _ _ hmem, hb⟩

/-- Settles O47, by what a step can be: an NMI entry, an IRQ entry, or an instruction. -/
theorem stepKeepsTheInvariant : Obligations.StepKeepsTheInvariant := by
  intro s t h ht
  rcases step_cases ht with ⟨-, rfl⟩ | ⟨-, rfl⟩ | ⟨-, i, -, hi⟩
  · exact State.interruptEntry_inv h
  · exact State.interruptEntry_inv h
  · exact exec_inv (s := s.fetched) h hi

/-- Every transaction keeps the invariant, a step that reports `IllegalOpcode` among them (R5, R202). -/
theorem transact_inv (h : s.Inv) (tr : Transaction) : (transact s tr).Inv := by
  have ⟨hmem, hb⟩ := h
  cases tr with
  | powerOn => exact ⟨hmem, rfl⟩
  | reset | assertIrq | assertNmi | clearIrq | setPc v => exact h
  | poke addr v => exact ⟨Memory.wf_write _ _ hmem, hb⟩
  | step =>
    rcases step_next_or_fault s with ⟨t, ht⟩ | ⟨op, pc, hf⟩
    · simpa only [transact, ht] using stepKeepsTheInvariant s t h ht
    · simp only [transact, hf]
      exact h

/-- Every sequence of transactions keeps the invariant (R6). -/
theorem transactAll_inv (h : s.Inv) (trs : List Transaction) : (transactAll s trs).Inv := by
  induction trs generalizing s with
  | nil => exact h
  | cons tr trs ih => exact ih (transact_inv h tr)

/-- Settles O49: power-on on a canonical memory has the invariant, and every sequence of transactions keeps it. -/
theorem reachableStatesHaveTheInvariant : Obligations.ReachableStatesHaveTheInvariant := by
  rintro _ ⟨mem, trs, hmem, rfl⟩
  exact transactAll_inv ⟨hmem, rfl⟩ trs

/-- Settles O48. -/
theorem resetHasTheInvariant : Obligations.ResetHasTheInvariant :=
  ⟨Memory.wf_nil, rfl⟩

/-! ### The status byte (R16 to R18) -/

/-- Each named bit of the status byte is the flag the accessor shows, but for bit 4 (R16, R17, R24). -/
theorem Flags.getLsbD_toByte_bit (f : Flags) (b4 : Bool) (name : FlagName) :
    (f.toByte b4).getLsbD name.bit = if name = .b then b4 else f.get name := by
  obtain ⟨hn, hv, hu, hb, hd, hi, hz, hc⟩ := f.getLsbD_toByte b4
  cases name <;> assumption

/-- A byte loaded into the flags and built again has bit 5 set, bit 4 given, and the other six as they were. -/
theorem Flags.toByte_fromByte (v : Byte) (f : Flags) (b4 : Bool) :
    (f.fromByte v).toByte b4 = (v &&& 0xCF) ||| 0x20 ||| (if b4 then 0x10 else 0) := by
  ext k hk
  interval_cases k <;> cases b4 <;> simp

/-- The six loaded flags come back from the byte built from them, whatever bit 4 is. -/
theorem Flags.fromByte_toByte (f g : Flags) (b4 : Bool) : g.fromByte (f.toByte b4) = { f with b := g.b } := by
  simp [Flags.fromByte]

/-- Settles O26. -/
theorem statusByteLayoutAndRoundTrip : Obligations.StatusByteLayoutAndRoundTrip := by
  refine ⟨fun f b4 name => ?_, fun v f b4 => ⟨rfl, f.toByte_fromByte v b4⟩, Flags.fromByte_toByte⟩
  rw [Flags.getLsbD_toByte_bit]
  cases name <;> rfl

/-! ### The transactions that are no step (R20, R22, R24, R47, R230) -/

/-- Settles O45: `State.reset` is the reset sequence after power-on, by `State.reset_eq_sequence`. -/
theorem powerOnValues : Obligations.PowerOnValues := by
  refine ⟨fun s => ⟨rfl, rfl, ?_, ?_⟩, State.reset_eq_sequence⟩
  · exact (by decide : Config.powerOnFlags.toByte Config.powerOnFlags.b = 0x24)
  · exact (by decide : Config.powerOnFlags.toByte true = 0x34)

/-- A write leaves its byte at its address and every other byte as it was (R31). -/
theorem State.stores_write (s : State) (addr : Word) (v : Byte) : Stores s (s.write addr v) [(addr, v)] := by
  refine ⟨by simp, fun other h => ?_⟩
  exact Memory.read_write_other _ _ (by simpa using h)

/-- Settles O46. -/
theorem environmentTransactionsWriteOneThing : Obligations.EnvironmentTransactionsWriteOneThing := by
  intro s
  refine ⟨rfl, rfl, rfl, rfl, rfl, fun _ => rfl, fun addr v => ⟨s.stores_write addr v, rfl⟩, fun name => ?_⟩
  cases name <;> rfl

end Sys2Proof.Machine
end

section
/-! PROOFS. The statements about memory, the stack and the bus (20_memory.md): a canonical memory is known by its reads,
the stack's four operations, the accesses of an interrupt entry, and a step's writes as the writes it makes on the bus,
said of the effect of an instruction and of an entry and then of the step. -/

namespace Sys2Proof.Machine

open Sys2Proof.Spec

/-! ### The canonical form of memory (R30) -/

/-- The cells of a canonical memory are the addresses that do not read as an unlisted one, with what they read. -/
theorem Memory.mem_iff_lookup {m : Memory} (h : m.wf) {a : Nat} {v : Byte} :
    (a, v) ∈ m ↔ m.lookup a = v ∧ v ≠ Memory.unlisted := by
  induction m with
  | nil => simp +contextual [Memory.lookup, eq_comm]
  | cons cell rest ih =>
    obtain ⟨k, w⟩ := cell
    have hlt : ∀ c ∈ rest, k < c.1 := (List.pairwise_cons.1 h.1).1
    have hw : w ≠ Memory.unlisted := (h.2 (k, w) List.mem_cons_self).2
    rw [List.mem_cons, Prod.mk.injEq, ih (Memory.wf_tail h)]
    by_cases hk : a = k
    · subst hk
      rw [Memory.lookup_of_lt hlt, Memory.lookup_head]
      constructor
      · rintro (⟨-, rfl⟩ | ⟨rfl, hv⟩)
        · exact ⟨rfl, hw⟩
        · exact absurd rfl hv
      · rintro ⟨rfl, -⟩
        exact .inl ⟨rfl, rfl⟩
    · simp [Memory.lookup, hk, Ne.symm hk]

/-- The same, for the reads of the bus: a cell's key is the address it is read at. -/
theorem Memory.mem_iff_read {m : Memory} (h : m.wf) {a : Nat} {v : Byte} :
    (a, v) ∈ m ↔ a < 65536 ∧ m.read (BitVec.ofNat 16 a) = v ∧ v ≠ Memory.unlisted := by
  constructor
  · intro hc
    have ha : a < 65536 := (h.2 _ hc).1
    refine ⟨ha, ?_⟩
    rwa [Memory.read, BitVec.toNat_ofNat, Nat.mod_eq_of_lt ha, ← Memory.mem_iff_lookup h]
  · rintro ⟨ha, hv⟩
    rwa [Memory.read, BitVec.toNat_ofNat, Nat.mod_eq_of_lt ha, ← Memory.mem_iff_lookup h] at hv

/-- Settles O50: both lists have the same cells, and a list strictly rising by address is known by its cells. -/
theorem canonicalMemoriesAgreeOnlyIfEqual : Obligations.CanonicalMemoriesAgreeOnlyIfEqual := by
  intro m m' h h' hread
  refine List.Pairwise.eq_of_mem_iff (r := Prod.fst ⁻¹'o (· < ·)) h.1 h'.1 fun (a, v) => ?_
  rw [Memory.mem_iff_read h, Memory.mem_iff_read h', hread]

/-! ### The stack (R37 to R39) -/

theorem toNat_stackSlot (p : Byte) : (stackSlot p).toNat = 0x100 + p.toNat := by
  simp [stackSlot]

/-- A push stores its byte at the slot of the stack pointer and no other byte (R38). -/
theorem State.stores_push (s : State) (v : Byte) : Stores s (s.push v) [(stackSlot s.sp, v)] :=
  s.stores_write (stackSlot s.sp) v

/-- A word push stores its two bytes, the high byte above the low byte, and no other byte (R39). -/
theorem State.stores_pushWord (s : State) (w : Word) :
    Stores s (s.pushWord w) [(stackSlot s.sp, hiByte w), (stackSlot (s.sp - 1), loByte w)] := by
  refine ⟨by simp [Memory.read_write, stackSlot_inj], fun addr h => ?_⟩
  simp only [List.map_cons, List.map_nil, List.mem_cons, List.not_mem_nil, or_false, not_or] at h
  rw [State.read_eq, State.pushWord_read, if_neg h.2, if_neg h.1, State.read_eq]

theorem Byte.sub_two (p : Byte) : p - 2#8 = p - 1#8 - 1#8 := by bv_omega

theorem Byte.add_two (p : Byte) : p + 2#8 = p + 1#8 + 1#8 := by bv_omega

/-- Settles O27, by what a push and a word push store and what a pull gives back. -/
theorem stackWordsGoHighByteFirst : Obligations.StackWordsGoHighByteFirst := by
  refine ⟨toNat_stackSlot, fun s v => ⟨s.stores_push v, rfl, rfl, rfl, s.top_push v⟩, fun s w => ?_⟩
  refine ⟨s.stores_pushWord w, ?_, ?_, s.topWord_pushWord w, ?_⟩
  · simp only [BitVec.ofNat_eq_ofNat, Byte.sub_two]
    rfl
  · simp only [BitVec.ofNat_eq_ofNat, Byte.add_two]
    rfl
  · simp

/-! ### The bus accesses of the stack operations (R38, R39, R49, R207) -/

/-- On the bus a push is the write of its byte (R38). -/
theorem pushAccesses_push (s : State) (v : Byte) :
    pushAccesses s (s.push v) 1 = [.write (stackSlot s.sp) v] := by
  simp [pushAccesses, State.wrote]

/-- On the bus a word push is the write of its high byte, then of its low byte (R39). -/
theorem pushAccesses_pushWord (s : State) (w : Word) :
    pushAccesses s (s.pushWord w) 2 =
      [.write (stackSlot s.sp) (hiByte w), .write (stackSlot (s.sp - 1)) (loByte w)] := by
  simp [pushAccesses, List.range_succ, State.wrote, Memory.read_write, stackSlot_inj]

/-- An entry writes its three cells and then reads the vector as memory held it before: no byte of the vector is a
stack slot (R207, R41, R49). -/
theorem entryAccesses_interruptEntry (s : State) (b4 : Bool) {vector : Word}
    (hv : hiByte vector = 0xFF ∧ hiByte (vector + 1) = 0xFF) :
    entryAccesses s (s.interruptEntry vector b4) vector =
      (entryCells s s.pc b4).map (fun cell => .write cell.1 cell.2) ++
        [s.reads vector, s.reads (vector + 1)] := by
  have hlo := fun p => stackSlot_ne_of_hiByte hv.1 p
  have hhi := fun p => stackSlot_ne_of_hiByte hv.2 p
  have hpush : pushAccesses s (s.interruptEntry vector b4) 3 =
      (entryCells s s.pc b4).map (fun cell => .write cell.1 cell.2) := by
    simp [pushAccesses, entryCells, List.range_succ, State.wrote, Memory.read_write, stackSlot_inj, Byte.sub_two]
  simp only [entryAccesses, hpush, State.reads, State.read_eq, State.interruptEntry_read, hlo, hhi, if_false]

/-- Settles O56: each entry is one interrupt entry in the state with the request's latch cleared. -/
theorem interruptEntriesOnTheBus : Obligations.InterruptEntriesOnTheBus := by
  refine fun s => ⟨fun hnmi => ?_, fun hnmi hirq hi => ?_⟩
  · obtain ⟨-, hacc, -⟩ := step_of_nmi (s.service_eq_nmi.2 hnmi)
    exact hacc.trans (entryAccesses_interruptEntry { s with nmiPending := false } false nmiVector_page)
  · obtain ⟨-, hacc, -⟩ := step_of_irq (s.service_eq_irq.2 ⟨hnmi, hirq, hi⟩)
    exact hacc.trans (entryAccesses_interruptEntry { s with irqPending := false } false irqVector_page)

/-! ### The writes of a list of accesses (R49) -/

variable {s : State} {op : Resolved}

theorem applyWrites_append (m : Memory) (l l' : List Access) :
    applyWrites m (l ++ l') = applyWrites (applyWrites m l) l' := by
  induction l generalizing m with
  | nil => rfl
  | cons access l ih => cases access <;> exact ih _

/-- Reads change nothing (R31). -/
theorem applyWrites_map_reads {α : Type} (m : Memory) (s : State) (f : α → Word) (l : List α) :
    applyWrites m (l.map fun k => s.reads (f k)) = m := by
  induction l with
  | nil => rfl
  | cons k l ih => exact ih

/-- A fetch only reads (R49 (1) and (2)). -/
theorem applyWrites_fetchAccesses (m : Memory) : applyWrites m (fetchAccesses s) = m :=
  applyWrites_map_reads m s _ _

/-- The resolver only reads (R80 to R82). -/
theorem applyWrites_pointerAccesses (m : Memory) (op : Operand) : applyWrites m (pointerAccesses s op) = m := by
  cases op with
  | memory o => cases o <;> rfl
  | _ => rfl

/-- Memory after an interrupt entry is memory before it with the entry's writes on the bus (R207). -/
theorem State.interruptEntry_mem_eq_applyWrites (b4 : Bool) {vector : Word}
    (hv : hiByte vector = 0xFF ∧ hiByte (vector + 1) = 0xFF) :
    (s.interruptEntry vector b4).mem = applyWrites s.mem (entryAccesses s (s.interruptEntry vector b4) vector) := by
  rw [entryAccesses_interruptEntry s b4 hv]
  simp [applyWrites, entryCells, State.reads, Byte.sub_two]

/-- A store writes its one byte on the bus, and none where the operand is no address (R86). -/
theorem State.storeResolved_mem_eq_applyWrites (v : Byte) :
    (s.storeResolved v op).mem = applyWrites s.mem (BusRole.writeData.accesses s (s.storeResolved v op) op) := by
  cases op with
  | addr a => simp [State.storeResolved, BusRole.accesses, State.wrote, applyWrites]
  | _ => rfl

/-- A read-modify-write writes its one byte on the bus, and none on the accumulator (R144). -/
theorem State.modifyResolved_mem_eq_applyWrites (f : Byte → Flags → Byte × Flags) :
    (s.modifyResolved f op).mem =
      applyWrites s.mem (BusRole.modifyData.accesses s (s.modifyResolved f op) op) := by
  cases op with
  | addr a => simp [State.modifyResolved, BusRole.accesses, State.reads, State.wrote, applyWrites]
  | _ => rfl

/-- Memory after an instruction is memory before it with the instruction's writes on the bus (R49 (4) to (6)). -/
theorem State.effect_mem_eq_applyWrites {m : Mnemonic} :
    (s.effect op m).mem = applyWrites s.mem ((busRole m).accesses s (s.effect op m) op) := by
  cases m with
  | sta | stx | sty => exact State.storeResolved_mem_eq_applyWrites _
  | asl | lsr | rol | ror | inc | dec => exact State.modifyResolved_mem_eq_applyWrites _
  | lda | ldx | ldy | adc | sbc | and | ora | eor | cmp | cpx | cpy | bit => cases op <;> rfl
  | beq | bne | bcc | bcs | bmi | bpl | bvc | bvs =>
    simp only [State.effect]
    rw [State.ite_jumpResolved_eq]
    rfl
  | jmp => cases op <;> rfl
  | jsr =>
    simp only [State.effect, busRole, BusRole.accesses, pushAccesses_jumpResolved, pushAccesses_pushWord]
    cases op <;> rfl
  | pha | php =>
    simp only [State.effect, busRole, BusRole.accesses, pushAccesses_push]
    rfl
  | brk => exact State.interruptEntry_mem_eq_applyWrites (s := { s with pc := s.pc + 1 }) true irqVector_page
  | pla | plp | rts | rti => exact (applyWrites_map_reads s.mem s _ _).symm
  | _ => rfl

/-- Settles O51, by what a step can be: an NMI entry, an IRQ entry, or an instruction after its fetch. -/
theorem stepWritesAreItsBusWrites : Obligations.StepWritesAreItsBusWrites := by
  intro s t h
  rcases step_cases h with ⟨hn, rfl⟩ | ⟨hn, rfl⟩ | ⟨hn, i, hf, hi⟩
  · obtain ⟨-, hacc, -⟩ := step_of_nmi hn
    rw [hacc]
    exact State.interruptEntry_mem_eq_applyWrites (s := { s with nmiPending := false }) false nmiVector_page
  · obtain ⟨-, hacc, -⟩ := step_of_irq hn
    rw [hacc]
    exact State.interruptEntry_mem_eq_applyWrites (s := { s with irqPending := false }) false irqVector_page
  · obtain ⟨-, hacc, -⟩ := step_of_fetch_ok hn hf hi
    rw [hacc, applyWrites_append, applyWrites_append, applyWrites_fetchAccesses, applyWrites_pointerAccesses,
      dataAccesses_eq_accesses]
    obtain rfl := effect_of_exec hi
    exact State.effect_mem_eq_applyWrites (s := s.fetched)

end Sys2Proof.Machine
end

section
/-! PROOFS. The statements about the encoding (30_encoding.md): the entry found for an instruction's opcode makes that
instruction, a sound entry's field and the encoder undo each other, and the opcodes without an entry are those of R55. -/

namespace Sys2Proof

open Sys2Proof.Spec

/-! ### Every instruction has its entry (R53, R59) -/

/-- The operand field makes the instruction from some value of its operand. -/
abbrev OperandField.Makes (f : OperandField) (i : Instr) : Prop :=
  match f with
  | .none j => j = i
  | .byte make => ∃ b, make b = i
  | .rel make => ∃ r, make r = i
  | .word make => ∃ w, make w = i

/-- The rows of the table stand in the order of the constructors: the row at an instruction's place has its opcode and
makes it (R59). -/
theorem opcodeTable_getElem?_ctorIdx (i : Instr) :
    ∃ e, opcodeTable[i.ctorIdx]? = some e ∧ e.opcode = i.opcode ∧ e.field.Makes i := by
  cases i with
  | aslAcc | lsrAcc | rolAcc | rorAcc | tax | txa | tay | tya | tsx | txs | inx | iny | dex | dey | rts
  | pha | pla | php | plp | rti | brk | clc | sec | cli | sei | clv | cld | sed | nop => exact ⟨_, rfl, rfl, rfl⟩
  | _ v => exact ⟨_, rfl, rfl, v, rfl⟩

/-- The lookup finds every row of the table by its opcode, for no two rows share one (R53). -/
theorem findEntry_opcode_of_mem {e : Entry} (h : e ∈ opcodeTable) : findEntry e.opcode = some e := by
  cases hf : findEntry e.opcode with
  | none => simpa using List.find?_eq_none.1 hf e h
  | some e' =>
    have hop : e'.opcode = e.opcode := (findEntry_some hf).2
    rw [List.inj_on_of_nodup_map opcodeTable_nodup (List.mem_of_find?_eq_some hf) h hop]

/-- The entry of an instruction's opcode makes that instruction (R53, R59). -/
theorem findEntry_makes (i : Instr) : ∃ e, findEntry i.opcode = some e ∧ e.field.Makes i := by
  obtain ⟨e, hrow, hop, hm⟩ := opcodeTable_getElem?_ctorIdx i
  exact ⟨e, hop ▸ findEntry_opcode_of_mem (List.mem_of_getElem? hrow), hm⟩

/-! ### A sound entry's field and the encoder undo each other (R51, R52) -/

variable {e : Entry} {i : Instr}

/-- A sound entry parses the operand bytes of a well-formed instruction it makes back to that instruction. -/
theorem Entry.Sound.parse_bytes (h : e.Sound) (hm : e.field.Makes i) (hw : i.wellFormed = true) (rest : List Byte) :
    e.field.parse (i.operand.bytes ++ rest) = .ok i rest := by
  obtain ⟨op, field, base, pageExtra⟩ := e
  cases field with
  | none j =>
    obtain rfl := hm
    obtain ⟨-, hb, -⟩ := h
    rw [hb]
    rfl
  | byte make =>
    obtain ⟨b, rfl⟩ := hm
    obtain ⟨-, hb, -⟩ := h b
    rw [hb]
    rfl
  | rel make =>
    obtain ⟨r, rfl⟩ := hm
    obtain ⟨-, ho⟩ := h r
    obtain ⟨hlo, hhi⟩ : -128 ≤ r ∧ r ≤ 127 := by simpa [Instr.wellFormed, ho, Operand.wellFormed] using hw
    simp [ho, Operand.bytes, OperandField.parse, toInt_ofInt8 hlo hhi]
  | word make =>
    obtain ⟨w, rfl⟩ := hm
    obtain ⟨-, hb, -⟩ := h w
    simp [hb, OperandField.parse]

/-- What a sound entry parses is a well-formed instruction of its opcode, and the bytes used are its operand bytes. -/
theorem Entry.Sound.of_parse (h : e.Sound) {bytes rest : List Byte} (hp : e.field.parse bytes = .ok i rest) :
    i.opcode = e.opcode ∧ i.wellFormed = true ∧ bytes = i.operand.bytes ++ rest := by
  obtain ⟨op, field, base, pageExtra⟩ := e
  match field, bytes with
  | .none j, bytes =>
    obtain ⟨rfl, rfl⟩ := Decoded.ok.inj hp
    obtain ⟨ho, hb, hw⟩ := h
    exact ⟨ho, hw, by rw [hb]; rfl⟩
  | .byte make, b :: tail =>
    obtain ⟨rfl, rfl⟩ := Decoded.ok.inj hp
    obtain ⟨ho, hb, hw⟩ := h b
    exact ⟨ho, hw, by rw [hb]; rfl⟩
  | .rel make, b :: tail =>
    obtain ⟨rfl, rfl⟩ := Decoded.ok.inj hp
    obtain ⟨hop, ho⟩ := h b.toInt
    have hlo : -128 ≤ b.toInt := BitVec.le_toInt b
    have hhi : b.toInt < 128 := BitVec.toInt_lt
    refine ⟨hop, ?_, by simp [ho, Operand.bytes]⟩
    simp only [Instr.wellFormed, ho, Operand.wellFormed, Bool.and_eq_true, decide_eq_true_eq]
    omega
  | .word make, lo :: hi :: tail =>
    obtain ⟨rfl, rfl⟩ := Decoded.ok.inj hp
    obtain ⟨ho, hb, hw⟩ := h (mkWord hi lo)
    exact ⟨ho, hw, by simp [hb]⟩

/-! ### The round trips (R50 to R53, R56) -/

/-- An instruction has at most two operand bytes (R50). -/
theorem OperandField.length_le_two (f : OperandField) : f.length ≤ 2 := by
  cases f <;> simp [OperandField.length]

/-- Settles O42: the entry of the opcode parses the operand bytes back, and its field is as long as the bytes it
parses. -/
theorem decodeOfEncodeIsTheInstruction : Obligations.DecodeOfEncodeIsTheInstruction := by
  intro i rest hw
  obtain ⟨e, he, hm⟩ := findEntry_makes i
  have hparse : ∀ tail, e.field.parse (i.operand.bytes ++ tail) = .ok i tail :=
    (findEntry_some he).1.parse_bytes hm hw
  have hlen : (encode i).length = e.length := by
    simpa [encode, Entry.length, Nat.add_comm] using OperandField.parse_rest (hparse [])
  refine ⟨?_, ?_, ?_⟩
  · simpa [encode, decode_cons, he] using hparse rest
  · simp [instrLength, he, hlen]
  · have hle := e.field.length_le_two
    simp only [hlen, Entry.length]
    omega

/-- Settles O43: an opcode with an entry has a sound one. -/
theorem everyDecodedWordIsAnEncoding : Obligations.EveryDecodedWordIsAnEncoding := by
  intro bytes rest i h
  match bytes with
  | op :: tail =>
    rw [decode_cons] at h
    cases he : findEntry op with
    | none => simp [he] at h
    | some e =>
      obtain ⟨hs, hop⟩ := findEntry_some he
      obtain ⟨ho, hw, rfl⟩ := hs.of_parse (by simpa [he] using h)
      exact ⟨hw, by simp [encode, ho, hop]⟩

/-! ### The opcodes without an entry (R55) -/

/-- A set of bytes as a number: bit `n` says whether byte `n` is in the list. It makes one number of the 256 cases
below. -/
def byteMask (bytes : List Byte) : Nat := bytes.foldr (fun b mask => 2 ^ b.toNat ||| mask) 0

theorem testBit_byteMask (bytes : List Byte) (b : Byte) : (byteMask bytes).testBit b.toNat = decide (b ∈ bytes) := by
  induction bytes with
  | nil => simp [byteMask]
  | cons c bytes ih =>
    rw [byteMask, List.foldr_cons, Nat.testBit_or, ← byteMask, ih]
    simp [Nat.testBit_two_pow, BitVec.toNat_inj, eq_comm]

/-- The opcodes of the table and the list of R55 share no byte, and no byte of the 256 is in neither. -/
theorem byteMask_opcodes_xor_illegalOpcodes :
    byteMask (opcodeTable.map Entry.opcode) ^^^ byteMask illegalOpcodes = 2 ^ 256 - 1 := by decide +kernel

theorem mem_illegalOpcodes_iff (op : Byte) : op ∈ illegalOpcodes ↔ op ∉ opcodeTable.map Entry.opcode := by
  have h := congrArg (Nat.testBit · op.toNat) byteMask_opcodes_xor_illegalOpcodes
  simp only [Nat.testBit_xor, testBit_byteMask, Nat.testBit_two_pow_sub_one, op.isLt, decide_true] at h
  by_cases hop : op ∈ opcodeTable.map Entry.opcode <;> simpa [hop] using h

/-- The lookup finds no entry exactly for the opcodes of R55. -/
theorem findEntry_eq_none_iff (op : Byte) : findEntry op = none ↔ op ∈ illegalOpcodes := by
  simp [mem_illegalOpcodes_iff, findEntry, List.find?_eq_none]

/-- The list of R55 rises, so no value stands in it twice. -/
theorem illegalOpcodes_nodup : illegalOpcodes.Nodup :=
  (List.isChain_iff_pairwise.1 (by decide +kernel : illegalOpcodes.IsChain (· < ·))).imp BitVec.ne_of_lt

/-- No operand field refuses an opcode: that is the lookup's answer alone (R53). -/
theorem OperandField.parse_ne_illegalOpcode (f : OperandField) (bytes : List Byte) (op : Byte) :
    f.parse bytes ≠ .illegalOpcode op := by
  unfold OperandField.parse
  split <;> nofun

/-- Decoding refuses an opcode exactly where the lookup finds no entry (R53, R55). -/
theorem decode_eq_illegalOpcode_iff (op : Byte) (rest : List Byte) :
    decode (op :: rest) = .illegalOpcode op ↔ findEntry op = none := by
  rw [decode_cons]
  cases findEntry op with
  | none => simp
  | some e => simp [e.field.parse_ne_illegalOpcode]

/-- Settles O39. -/
theorem illegalOpcodesAreTheListed105 : Obligations.IllegalOpcodesAreTheListed105 :=
  ⟨fun op rest => (decode_eq_illegalOpcode_iff op rest).trans (findEntry_eq_none_iff op), rfl,
    illegalOpcodes_nodup⟩

/-- Settles O41: each word is the encoding of its instruction, by its entry in the table. -/
theorem sampleWordsDecode : Obligations.SampleWordsDecode :=
  fun _ => ⟨rfl, rfl, rfl, rfl, rfl, rfl, rfl, rfl⟩

end Sys2Proof
end

section
/-! PROOFS. The statements about the addressing modes (40_addressing_modes.md): the sums an address is made of and the
page-cross report as numbers, the bytes of a word operand, the users of Indirect and Relative, and the report as no
input of an instruction. -/

namespace Sys2Proof.Machine

open Sys2Proof.Spec

/-! ### The sums an address is made of (R8, R40, R78, R83) -/

/-- A zero-page address is its byte (R40). -/
theorem toNat_zeroPageAddr (z : Byte) : (zeroPageAddr z).toNat = z.toNat := by
  simp [zeroPageAddr]

/-- A zero-page sum wraps modulo 256 (R75, R76, R81). -/
theorem toNat_zeroPageAddr_add (z b : Byte) : (zeroPageAddr (z + b)).toNat = (z.toNat + b.toNat) % 256 := by
  rw [toNat_zeroPageAddr, BitVec.toNat_add]

/-- An index is added without sign, modulo 65536 (R78, R79, R82). -/
theorem toNat_mkWord_add_zext16 (hi lo b : Byte) :
    (mkWord hi lo + zext16 b).toNat = (256 * hi.toNat + lo.toNat + b.toNat) % 65536 := by
  rw [BitVec.toNat_add, toNat_mkWord, toNat_zext16, Nat.mul_comm]

/-- A branch offset is added with its sign, modulo 65536 (R83). -/
theorem State.toNat_relativeTarget (s : State) (r : Int) :
    ((s.relativeTarget r).toNat : Int) = ((s.pc.toNat : Int) + r) % 65536 := by
  rw [State.relativeTarget, BitVec.toNat_add, BitVec.toNat_ofInt]
  omega

/-! ### The page-cross report (R84) -/

theorem pagesDiffer_eq_decide (a b : Word) : pagesDiffer a b = decide (hiByte a ≠ hiByte b) := by
  rw [Bool.eq_iff_iff, pagesDiffer_iff, decide_eq_true_iff]

/-- What the resolver answers for an address indexed from the base `{hi, lo}`: the report compares with `hi` (R78, R79,
R82). -/
theorem addr_pagesDiffer_mkWord (a : Word) (hi lo : Byte) :
    (Resolved.addr a, pagesDiffer a (mkWord hi lo)) = (.addr a, decide (hiByte a ≠ hi)) := by
  rw [pagesDiffer_eq_decide, hiByte_mkWord]

/-- A mode that reports a cross is one of the four. -/
theorem State.mode_of_resolve_crossed (s : State) (o : Operand) (h : (s.resolve o).2 = true) :
    o.mode ∈ [Mode.absoluteX, .absoluteY, .indirectY, .relative] := by
  cases o with
  | implied | accumulator | immediate _ => cases h
  | relative _ => simp [Operand.mode]
  | memory m =>
    cases m with
    | absoluteX _ | absoluteY _ | indirectY _ => simp [Operand.mode, MemOperand.mode]
    | zeroPage _ | zeroPageX _ | zeroPageY _ | absolute _ | indirect _ | indirectX _ => cases h

/-- Settles O33: the effect of an instruction takes its mnemonic and its resolved operand, and no report. -/
theorem onlyFourModesReportAPageCross : Obligations.OnlyFourModesReportAPageCross := by
  refine ⟨State.mode_of_resolve_crossed, fun i i' s hm hr => ⟨_, exec_eq_effect s i, ?_⟩⟩
  rw [exec_eq_effect, hm, hr]

/-! ### The zero-page and the absolute modes (R74 to R79) -/

/-- Settles O28: the three addresses are the zero-page addresses of `z`, `z + X` and `z + Y`. -/
theorem zeroPageModesStayInZeroPage : Obligations.ZeroPageModesStayInZeroPage :=
  fun s z => ⟨⟨_, rfl, toNat_zeroPageAddr z⟩, ⟨_, rfl, toNat_zeroPageAddr_add z s.x⟩,
    ⟨_, rfl, toNat_zeroPageAddr_add z s.y⟩, rfl, rfl, rfl⟩

/-- A word operand stands in memory low byte first (R34, R51). -/
theorem loByte_hiByte_mkWord (hi lo : Byte) : [loByte (mkWord hi lo), hiByte (mkWord hi lo)] = [lo, hi] := by
  rw [loByte_mkWord, hiByte_mkWord]

/-- Settles O29: the report compares the page of the sum with the high byte of the operand. -/
theorem absoluteModesAddTheIndex : Obligations.AbsoluteModesAddTheIndex := by
  intro s lo hi
  have hbytes := loByte_hiByte_mkWord hi lo
  refine ⟨⟨mkWord hi lo, rfl, ?_⟩, ⟨_, addr_pagesDiffer_mkWord _ hi lo, toNat_mkWord_add_zext16 hi lo s.x⟩,
    ⟨_, addr_pagesDiffer_mkWord _ hi lo, toNat_mkWord_add_zext16 hi lo s.y⟩, hbytes, hbytes, hbytes⟩
  rw [toNat_mkWord, Nat.mul_comm]

/-! ### The modes that read a pointer (R80 to R82) -/

/-- JMP alone has an operand of mode Indirect (R80). -/
theorem mnemonic_of_mode_indirect (i : Instr) (h : i.operand.mode = .indirect) : i.mnemonic = .jmp := by
  cases i with
  | jmpInd _ => rfl
  | _ => cases h

/-- Settles O30: the second read keeps the high byte of the pointer and increments its low byte. -/
theorem indirectReadsItsPointerInOnePage : Obligations.IndirectReadsItsPointerInOnePage := by
  refine ⟨fun s lo hi => ⟨?_, ?_, loByte_hiByte_mkWord hi lo⟩, mnemonic_of_mode_indirect⟩
  · simp [State.effectiveAddress, State.samePagePointer, State.memoryCrossed]
  · simp [pointerAccesses, State.reads]

/-- Settles O31: the pointer's two addresses are zero-page addresses, and IndirectY indexes the word there. -/
theorem zeroPagePointersWrapInZeroPage : Obligations.ZeroPagePointersWrapInZeroPage := by
  intro s z
  have hq : (zeroPageAddr (z + s.x + 1)).toNat = (z.toNat + s.x.toNat + 1) % 256 := by
    simp [toNat_zeroPageAddr_add]
  exact ⟨⟨_, _, toNat_zeroPageAddr_add z s.x, hq, rfl, rfl⟩,
    ⟨_, _, _, toNat_zeroPageAddr z, toNat_zeroPageAddr_add z 1, toNat_mkWord_add_zext16 _ _ s.y,
      addr_pagesDiffer_mkWord _ _ _, rfl⟩, rfl, rfl⟩

/-! ### The branches' mode (R83) -/

/-- The eight branches alone have an operand of mode Relative (R83). -/
theorem mnemonic_of_mode_relative (i : Instr) (h : i.operand.mode = .relative) :
    i.mnemonic ∈ [Mnemonic.beq, .bne, .bcc, .bcs, .bmi, .bpl, .bvc, .bvs] := by
  cases i with
  | beq _ | bne _ | bcc _ | bcs _ | bmi _ | bpl _ | bvc _ | bvs _ => simp [Instr.mnemonic]
  | _ => cases h

/-- Settles O32: the sum holds of every integer offset, and the operand byte is the offset's own. -/
theorem relativeTargetIsSigned : Obligations.RelativeTargetIsSigned := by
  refine ⟨fun s r => ⟨s.relativeTarget r.toInt, ?_, s.toNat_relativeTarget r.toInt, ?_⟩, mnemonic_of_mode_relative⟩
  · rw [State.resolve_relative, pagesDiffer_eq_decide]
  · simp [Operand.bytes]

end Sys2Proof.Machine
end

section
/-! PROOFS. The statements about loads, stores and transfers (41_load_store_transfer.md), and what they share with every
instruction of the same kind: the forms of a mnemonic read off the opcode table, and one rule each for the instructions
that read their operand, that store to it, and that make no data access, from the effect of the mnemonic. -/

namespace Sys2Proof.Machine

open Sys2Proof.Spec

/-! ### The forms of a mnemonic (R53, R59) -/

/-- The instruction an entry makes from the operand 0. -/
def sampleInstr (e : Entry) : Instr :=
  match e.field with
  | .none i => i
  | .byte make => make 0
  | .rel make => make 0
  | .word make => make 0

/-- The pairs of mode and opcode the opcode table has for a mnemonic, in its order. -/
def tableForms (m : Mnemonic) : List (Mode × Byte) :=
  ((opcodeTable.map sampleInstr).filter (·.mnemonic = m)).map fun i => (i.operand.mode, i.opcode)

/-- The table has a row for every instruction, and the operand's value decides neither the mnemonic nor the form. -/
theorem exists_sampleInstr_eq (i : Instr) :
    ∃ e ∈ opcodeTable, (sampleInstr e).mnemonic = i.mnemonic ∧ (sampleInstr e).operand.mode = i.operand.mode ∧
      (sampleInstr e).opcode = i.opcode := by
  have hrow : ∃ e, opcodeTable[i.ctorIdx]? = some e ∧ (sampleInstr e).mnemonic = i.mnemonic ∧
      (sampleInstr e).operand.mode = i.operand.mode ∧ (sampleInstr e).opcode = i.opcode := by
    cases i <;> exact ⟨_, rfl, rfl, rfl, rfl⟩
  obtain ⟨e, he, hform⟩ := hrow
  exact ⟨e, List.mem_of_getElem? he, hform⟩

/-- A mnemonic has exactly the forms the opcode table has for it. -/
theorem forms_tableForms (m : Mnemonic) : Forms m (tableForms m) := by
  constructor
  · rintro i rfl
    obtain ⟨e, he, hmn, hmode, hop⟩ := exists_sampleInstr_eq i
    refine List.mem_map.2 ⟨sampleInstr e, ?_, by rw [hmode, hop]⟩
    exact List.mem_filter.2 ⟨List.mem_map_of_mem he, decide_eq_true hmn⟩
  · intro form hform
    obtain ⟨i, hi, rfl⟩ := List.mem_map.1 hform
    exact ⟨i, of_decide_eq_true (List.mem_filter.1 hi).2, rfl, rfl⟩

/-! ### The rules by bus role (R49, R86) -/

/-- An instruction that reads its operand has an immediate operand or one in memory. -/
theorem operand_of_readData {i : Instr} (h : busRole i.mnemonic = .readData) :
    (∃ v, i.operand = .immediate v) ∨ ∃ m, i.operand = .memory m := by
  cases i with
  | ldaImm | ldxImm | ldyImm | adcImm | sbcImm | andImm | oraImm | eorImm | cmpImm | cpxImm | cpyImm =>
    exact .inl ⟨_, rfl⟩
  | ldaZp | ldaZpX | ldaAbs | ldaAbsX | ldaAbsY | ldaIndX | ldaIndY | ldxZp | ldxZpY | ldxAbs | ldxAbsY
  | ldyZp | ldyZpX | ldyAbs | ldyAbsX | adcZp | adcZpX | adcAbs | adcAbsX | adcAbsY | adcIndX | adcIndY
  | sbcZp | sbcZpX | sbcAbs | sbcAbsX | sbcAbsY | sbcIndX | sbcIndY | andZp | andZpX | andAbs | andAbsX
  | andAbsY | andIndX | andIndY | oraZp | oraZpX | oraAbs | oraAbsX | oraAbsY | oraIndX | oraIndY
  | eorZp | eorZpX | eorAbs | eorAbsX | eorAbsY | eorIndX | eorIndY | cmpZp | cmpZpX | cmpAbs | cmpAbsX
  | cmpAbsY | cmpIndX | cmpIndY | cpxZp | cpxAbs | cpyZp | cpyAbs | bitZp | bitAbs => exact .inr ⟨_, rfl⟩
  | _ => cases h

/-- A store has an operand in memory. -/
theorem operand_of_writeData {i : Instr} (h : busRole i.mnemonic = .writeData) : ∃ m, i.operand = .memory m := by
  cases i with
  | staZp | staZpX | staAbs | staAbsX | staAbsY | staIndX | staIndY | stxZp | stxZpY | stxAbs | styZp | styZpX
  | styAbs => exact ⟨_, rfl⟩
  | _ => cases h

/-- The operand of an instruction that reads it has a value (R86). -/
theorem State.loadOperand_of_readData {i : Instr} (h : busRole i.mnemonic = .readData) (s : State) :
    s.loadOperand (s.resolve i.operand).1 = some (s.valueOf (s.resolve i.operand).1) := by
  obtain ⟨v, ho⟩ | ⟨o, ho⟩ := operand_of_readData h <;> rw [ho] <;> rfl

/-- The one access of an instruction that reads its operand is the read of its value, where it is in memory (R49). -/
theorem accesses_readData (s t : State) (op : Resolved) :
    BusRole.readData.accesses s t op = readOf op (s.valueOf op) := by
  cases op <;> rfl

variable {m : Mnemonic} {forms : List (Mode × Byte)}

/-- What an instruction that reads its operand does, from what its mnemonic does with the operand's value. -/
theorem readRule_of_effect {put : State → Byte → State} (hforms : Forms m forms) (hrole : busRole m = .readData)
    (heffect : ∀ (s : State) op, s.effect op m = put s (s.valueOf op)) : ReadRule m forms put := by
  refine ⟨hforms, ?_⟩
  rintro i s rfl
  refine ⟨_, State.loadOperand_of_readData hrole s, by rw [exec_eq_effect, heffect], ?_⟩
  rw [dataAccesses_eq_accesses, hrole, accesses_readData]

/-- What a store does, from the byte its mnemonic stores. -/
theorem storeRule_of_effect {value : State → Byte} (hforms : Forms m forms) (hrole : busRole m = .writeData)
    (heffect : ∀ (s : State) op, s.effect op m = s.storeResolved (value s) op) : StoreRule m forms value := by
  refine ⟨hforms, ?_⟩
  rintro i s rfl
  obtain ⟨o, ho⟩ := operand_of_writeData hrole
  refine ⟨s.effectiveAddress o, s.write (s.effectiveAddress o) (value s), by rw [ho, State.resolve_memory], ?_,
    s.stores_write _ _, rfl, ?_⟩
  · rw [exec_eq_effect, heffect, ho, State.resolve_memory, State.storeResolved]
  · rw [dataAccesses_eq_accesses, hrole, ho]
    simp [BusRole.accesses, State.wrote]

/-- What an Implied instruction with no data access does, from what its mnemonic does. -/
theorem quietRule_of_effect {i : Instr} {put : State → State} (hoperand : i.operand = .implied)
    (hrole : busRole i.mnemonic = .quiet) (heffect : ∀ s, s.effect .none i.mnemonic = put s) :
    QuietRule i i.opcode put := by
  refine ⟨rfl, hoperand, fun s => ⟨?_, ?_⟩⟩
  · rw [exec_eq_effect, hoperand, State.resolve_implied, heffect]
  · rw [dataAccesses_eq_accesses, hrole]
    rfl

/-! ### A register loaded with Z and N set (R100) -/

theorem Flags.setZN_eq_zn (f : Flags) (v : Byte) : f.setZN v = zn f v := rfl

theorem State.loadA_eq_zn (s : State) (v : Byte) : s.loadA v = { s with a := v, flags := zn s.flags v } := rfl

theorem State.loadX_eq_zn (s : State) (v : Byte) : s.loadX v = { s with x := v, flags := zn s.flags v } := rfl

theorem State.loadY_eq_zn (s : State) (v : Byte) : s.loadY v = { s with y := v, flags := zn s.flags v } := rfl

/-! ### Loads, stores and transfers (R101 to R112) -/

/-- Settles O1: each load is its register loaded with the operand's value. -/
theorem loadsTakeTheOperandValue : Obligations.LoadsTakeTheOperandValue :=
  ⟨readRule_of_effect (forms_tableForms _) rfl fun s _ => s.loadA_eq_zn _,
    readRule_of_effect (forms_tableForms _) rfl fun s _ => s.loadX_eq_zn _,
    readRule_of_effect (forms_tableForms _) rfl fun s _ => s.loadY_eq_zn _⟩

/-- Settles O2: each store puts its register at the resolved address. -/
theorem storesWriteOneByte : Obligations.StoresWriteOneByte :=
  ⟨storeRule_of_effect (forms_tableForms _) rfl fun _ _ => rfl,
    storeRule_of_effect (forms_tableForms _) rfl fun _ _ => rfl,
    storeRule_of_effect (forms_tableForms _) rfl fun _ _ => rfl⟩

/-- Settles O3: each transfer is its destination loaded with its source. -/
theorem transfersCopyARegister : Obligations.TransfersCopyARegister :=
  ⟨quietRule_of_effect rfl rfl fun s => s.loadX_eq_zn s.a, quietRule_of_effect rfl rfl fun s => s.loadA_eq_zn s.x,
    quietRule_of_effect rfl rfl fun s => s.loadY_eq_zn s.a, quietRule_of_effect rfl rfl fun s => s.loadA_eq_zn s.y,
    quietRule_of_effect rfl rfl fun s => s.loadX_eq_zn s.sp⟩

/-- Settles O4: TXS sets Z and N under the switch, by its effect (R112). -/
theorem txsCopiesXToTheStackPointer : Obligations.TxsCopiesXToTheStackPointer :=
  ⟨quietRule_of_effect rfl rfl fun s => by simp only [Instr.mnemonic, State.effect, Flags.setZN_eq_zn], rfl⟩

end Sys2Proof.Machine
end

section
/-! PROOFS. The statements about arithmetic and logic (42_arithmetic_logic.md): subtraction and comparison as the
addition of the complemented operand, the sums they make as differences, signed overflow as a range error of one sum,
and the decimal flag as no input of the adder. -/

namespace Sys2Proof.Machine

open Sys2Proof.Spec

/-! ### The complemented operand (R8, R121) -/

/-- The complement of R121 is the bitwise one. -/
theorem Byte.xor_ones (m : Byte) : m ^^^ 0xFF = ~~~m := BitVec.xor_allOnes

theorem Byte.toNat_complement (m : Byte) : (m ^^^ 0xFF).toNat = 255 - m.toNat := by
  rw [Byte.xor_ones, BitVec.toNat_not]

theorem Byte.toInt_complement (m : Byte) : (m ^^^ 0xFF).toInt = -1 - m.toInt := by
  rw [BitVec.toInt_eq_toNat_cond, BitVec.toInt_eq_toNat_cond, Byte.toNat_complement]
  have := m.isLt
  omega

/-! ### Overflow by the three signs (R122) -/

/-- Overflow of Add: the operands agree in sign and the result does not agree with them. -/
theorem overflow_add (a m r : Byte) :
    overflow a m r .add = decide (a.getLsbD 7 = m.getLsbD 7 ∧ r.getLsbD 7 ≠ a.getLsbD 7) := by
  simp only [overflow, BitVec.getLsbD_and, BitVec.getLsbD_xor]
  cases a.getLsbD 7 <;> cases m.getLsbD 7 <;> cases r.getLsbD 7 <;> rfl

/-- Overflow of Sub: the operands differ in sign and the result does not agree with the first. -/
theorem overflow_sub (a m r : Byte) :
    overflow a m r .sub = decide (a.getLsbD 7 ≠ m.getLsbD 7 ∧ r.getLsbD 7 ≠ a.getLsbD 7) := by
  simp only [overflow, BitVec.getLsbD_and, BitVec.getLsbD_xor]
  cases a.getLsbD 7 <;> cases m.getLsbD 7 <;> cases r.getLsbD 7 <;> rfl

/-- Complementing the second operand turns Sub into Add, for it turns that operand's sign. -/
theorem overflow_sub_eq_add (a m r : Byte) : overflow a m r .sub = overflow a (m ^^^ 0xFF) r .add := by
  have hsign : (m ^^^ 0xFF).getLsbD 7 = !m.getLsbD 7 := by simp
  simp only [overflow_sub, overflow_add, hsign, Bool.eq_not]

/-! ### Subtraction and comparison by the adder (R120, R121, R127) -/

/-- SBC is ADC of the complemented operand. -/
theorem subWithBorrow_eq_addWithCarry (a m : Byte) (f : Flags) :
    subWithBorrow a m f = addWithCarry a (m ^^^ 0xFF) f := by
  simp only [subWithBorrow, addWithCarry, overflow_sub_eq_add]

/-- The sum with the complemented operand is the difference, modulo 256: the carry is an inverted borrow. -/
theorem ofNat_complement_sum (a m : Byte) (c : Bool) :
    BitVec.ofNat 8 (a.toNat + (m ^^^ 0xFF).toNat + c.toNat) = a - m - BitVec.ofNat 8 (if c then 0 else 1) := by
  rw [Byte.toNat_complement]
  cases c <;> simp <;> bv_omega

/-- The sum with the complemented operand carries out exactly when the subtraction borrows nothing. -/
theorem carry_complement_sum (a m : Byte) (c : Bool) :
    0xFF < a.toNat + (m ^^^ 0xFF).toNat + c.toNat ↔ m.toNat + (if c then 0 else 1) ≤ a.toNat := by
  rw [Byte.toNat_complement]
  have := m.isLt
  cases c <;> simp <;> omega

/-- SBC in terms of the difference and the borrow (R121). -/
theorem State.sbc_eq_difference (s : State) (m : Byte) :
    s.sbc m =
      let borrow := if s.flags.c then 0 else 1
      let r := s.a - m - BitVec.ofNat 8 borrow
      { s with
        a := r
        flags := { zn s.flags r with
          v := overflow s.a m r .sub, c := decide (m.toNat + borrow ≤ s.a.toNat) } } := by
  simp only [State.sbc, subWithBorrow, ofNat_complement_sum, carry_complement_sum]
  rfl

/-- A compare in terms of the difference and the order of the operands (R127 to R129). -/
theorem State.compare_eq_difference (s : State) (r m : Byte) :
    s.compare r m = { s with flags := { zn s.flags (r - m) with c := decide (m.toNat ≤ r.toNat) } } := by
  have hdiff : BitVec.ofNat 8 (r.toNat + (m ^^^ 0xFF).toNat + 1) = r - m := by
    simpa using ofNat_complement_sum r m true
  have hcarry : 0xFF < r.toNat + (m ^^^ 0xFF).toNat + 1 ↔ m.toNat ≤ r.toNat := carry_complement_sum r m true
  simp only [State.compare, compareFlags, hdiff, hcarry]
  rfl

/-! ### Overflow as a range error (R122) -/

/-- Bit 7 is the sign. -/
theorem Byte.getLsbD_seven (b : Byte) : b.getLsbD 7 = decide (b.toInt < 0) := by
  rw [← BitVec.msb_eq_toInt, BitVec.msb_eq_getLsbD_last]

/-- The low byte of an unsigned sum is the low byte of the signed one. -/
theorem toInt_ofNat_sum (a m : Byte) (c : Nat) :
    (BitVec.ofNat 8 (a.toNat + m.toNat + c)).toInt = (a.toInt + m.toInt + c).bmod 256 := by
  have hsum : BitVec.ofNat 8 (a.toNat + m.toNat + c) = a + m + BitVec.ofNat 8 c := by simp [BitVec.ofNat_add]
  simp only [hsum, BitVec.toInt_add, BitVec.toInt_ofNat', Int.bmod_add_bmod, Int.add_bmod_bmod, Nat.reducePow]

/-- V after an addition is 1 exactly when the signed sum is no signed byte. -/
theorem addWithCarry_v_iff (a m : Byte) (f : Flags) :
    (addWithCarry a m f).2.v = true ↔
      ¬(-128 ≤ a.toInt + m.toInt + (f.c.toNat : Int) ∧ a.toInt + m.toInt + (f.c.toNat : Int) ≤ 127) := by
  have hc : f.c.toNat ≤ 1 := f.c.toNat_le
  have ha := a.le_two_mul_toInt
  have ha' := a.two_mul_toInt_lt
  have hm := m.le_two_mul_toInt
  have hm' := m.two_mul_toInt_lt
  simp only [addWithCarry, Flags.setZN_v, overflow_add, Byte.getLsbD_seven, toInt_ofNat_sum, decide_eq_true_iff,
    decide_eq_decide, ne_eq, Int.bmod]
  omega

/-- V after a subtraction is 1 exactly when the signed difference is no signed byte. -/
theorem subWithBorrow_v_iff (a m : Byte) (f : Flags) :
    (subWithBorrow a m f).2.v = true ↔
      ¬(-128 ≤ a.toInt - m.toInt - (1 - (f.c.toNat : Int)) ∧
        a.toInt - m.toInt - (1 - (f.c.toNat : Int)) ≤ 127) := by
  have hsum : a.toInt + (-1 - m.toInt) + (f.c.toNat : Int) = a.toInt - m.toInt - (1 - (f.c.toNat : Int)) := by omega
  rw [subWithBorrow_eq_addWithCarry, addWithCarry_v_iff, Byte.toInt_complement, hsum]

/-! ### The decimal flag (R123) -/

/-- The resolver reads no flag (R70). -/
theorem State.resolve_setFlags (s : State) (f : Flags) (o : Operand) :
    State.resolve { s with flags := f } o = s.resolve o := by
  cases o with
  | memory m => cases m <;> rfl
  | _ => rfl

/-- The value of an operand depends on no flag (R86). -/
theorem State.valueOf_setFlags (s : State) (f : Flags) (op : Resolved) :
    State.valueOf { s with flags := f } op = s.valueOf op := by
  cases op <;> rfl

/-! ### The statements -/

/-- Settles O5: the carry out of bit 7 is the exact sum above 255. -/
theorem adcAddsWithCarry : Obligations.AdcAddsWithCarry :=
  readRule_of_effect (forms_tableForms _) rfl fun _ _ => rfl

/-- Settles O6: the sum with the complemented operand is the difference. -/
theorem sbcSubtractsWithBorrow : Obligations.SbcSubtractsWithBorrow :=
  readRule_of_effect (forms_tableForms _) rfl fun s _ => s.sbc_eq_difference _

/-- Settles O7: for SBC by ADC of the complement, whose signed value is -1 - m. -/
theorem overflowIsTheSignedRangeError : Obligations.OverflowIsTheSignedRangeError :=
  ⟨fun a m r => ⟨overflow_add a m r, overflow_sub a m r, overflow_sub_eq_add a m r⟩,
    fun m s => ⟨⟨s.adc m, rfl, addWithCarry_v_iff s.a m s.flags⟩, s.sbc m, rfl, subWithBorrow_v_iff s.a m s.flags⟩⟩

/-- Settles O8: the operand does not depend on the flags, and the adder passes D on. -/
theorem decimalFlagDoesNotReachArithmetic : Obligations.DecimalFlagDoesNotReachArithmetic := by
  intro i s d hm
  refine ⟨_, exec_eq_effect s i, ?_⟩
  rw [exec_eq_effect, State.resolve_setFlags]
  rcases hm with hm | hm <;> rw [hm, State.effect, State.valueOf_setFlags] <;> rfl

/-- Settles O9: each is A loaded with the combined byte. -/
theorem logicCombinesWithTheAccumulator : Obligations.LogicCombinesWithTheAccumulator :=
  ⟨readRule_of_effect (forms_tableForms _) rfl fun s _ => s.loadA_eq_zn _,
    readRule_of_effect (forms_tableForms _) rfl fun s _ => s.loadA_eq_zn _,
    readRule_of_effect (forms_tableForms _) rfl fun s _ => s.loadA_eq_zn _⟩

/-- Settles O10: each is a compare of its register with the operand's value. -/
theorem comparesSetOnlyFlags : Obligations.ComparesSetOnlyFlags :=
  ⟨readRule_of_effect (forms_tableForms _) rfl fun s _ => s.compare_eq_difference s.a _,
    readRule_of_effect (forms_tableForms _) rfl fun s _ => s.compare_eq_difference s.x _,
    readRule_of_effect (forms_tableForms _) rfl fun s _ => s.compare_eq_difference s.y _⟩

/-- Settles O11: Z, N and V are written by the bit test as R130 has them. -/
theorem bitTestSetsZNV : Obligations.BitTestSetsZNV :=
  readRule_of_effect (forms_tableForms _) rfl fun _ _ => rfl

end Sys2Proof.Machine
end

section
/-! PROOFS. The statements about shifts, rotates, increments and decrements (43_shift_incdec.md): one rule for the
instructions that read, modify and write their operand, from the effect of the mnemonic, and each operation on the
operand's bits as arithmetic on its value. -/

namespace Sys2Proof.Machine

open Sys2Proof.Spec

/-! ### The rule of the read-modify-write instructions (R49, R144) -/

/-- An instruction that modifies its operand has the accumulator or an operand in memory. -/
theorem operand_of_modifyData {i : Instr} (h : busRole i.mnemonic = .modifyData) :
    i.operand = .accumulator ∨ ∃ m, i.operand = .memory m := by
  cases i with
  | aslAcc | lsrAcc | rolAcc | rorAcc => exact .inl rfl
  | aslZp | aslZpX | aslAbs | aslAbsX | lsrZp | lsrZpX | lsrAbs | lsrAbsX | rolZp | rolZpX | rolAbs | rolAbsX
  | rorZp | rorZpX | rorAbs | rorAbsX | incZp | incZpX | incAbs | incAbsX | decZp | decZpX | decAbs | decAbsX =>
    exact .inr ⟨_, rfl⟩
  | _ => cases h

/-- What a read-modify-write instruction does, from the operation its mnemonic applies to the operand: `g` is that
operation in the words of the statement. -/
theorem modifyRule_of_effect {m : Mnemonic} {forms : List (Mode × Byte)} {f g : Byte → Flags → Byte × Flags}
    (hforms : Forms m forms) (hrole : busRole m = .modifyData)
    (heffect : ∀ (s : State) op, s.effect op m = s.modifyResolved f op) (hfg : ∀ v fl, f v fl = g v fl) :
    ModifyRule m forms g := by
  obtain rfl : f = g := funext₂ hfg
  refine ⟨hforms, ?_⟩
  rintro i s rfl
  refine ⟨_, exec_eq_effect s i, ?_⟩
  rw [dataAccesses_eq_accesses, hrole, heffect]
  obtain ho | ⟨o, ho⟩ := operand_of_modifyData hrole <;> rw [ho]
  · exact ⟨rfl, rfl⟩
  · refine ⟨s.stores_write _ _, rfl, ?_⟩
    simp [BusRole.accesses, State.modifyResolved, State.reads, State.wrote]

/-! ### The bits as numbers (R8) -/

/-- The bit a shift to the left puts out. -/
theorem Byte.getLsbD_seven_eq_decide (v : Byte) : v.getLsbD 7 = decide (128 ≤ v.toNat) :=
  v.msb_eq_getLsbD_last.symm.trans v.msb_eq_decide

/-- The bit a shift to the right puts out. -/
theorem Byte.getLsbD_zero_eq_decide (v : Byte) : v.getLsbD 0 = decide (v.toNat % 2 = 1) :=
  Nat.testBit_zero v.toNat

theorem Byte.shiftLeft_one (v : Byte) : v <<< 1 = BitVec.ofNat 8 (2 * v.toNat) := by
  apply BitVec.eq_of_toNat_eq
  simp [Nat.shiftLeft_eq, mul_comm]

theorem Byte.ushiftRight_one (v : Byte) : v >>> 1 = BitVec.ofNat 8 (v.toNat / 2) := by
  apply BitVec.eq_of_toNat_eq
  rw [BitVec.toNat_ushiftRight, BitVec.toNat_ofNat, Nat.shiftRight_eq_div_pow]
  omega

theorem flagByte_eq_ofNat (c : Bool) : flagByte c = BitVec.ofNat 8 c.toNat := by
  cases c <;> rfl

theorem flagByte_shiftLeft_seven (c : Bool) : flagByte c <<< 7 = BitVec.ofNat 8 (128 * c.toNat) := by
  cases c <;> rfl

/-- Bit 0 is free after a shift to the left, so the carry put there is added (R142). -/
theorem Byte.rotateLeft_carry (v : Byte) (c : Bool) :
    v <<< 1 ||| flagByte c = BitVec.ofNat 8 (2 * v.toNat + c.toNat) := by
  have hfree : v <<< 1 &&& flagByte c = 0#8 := by
    ext k hk
    cases k with
    | zero => simp
    | succ k => simp [flagByte]
  rw [← BitVec.add_eq_or_of_and_eq_zero _ _ hfree, Byte.shiftLeft_one, flagByte_eq_ofNat, BitVec.ofNat_add]

/-- Bit 7 is free after a shift to the right, so the carry put there is added (R143). -/
theorem Byte.rotateRight_carry (v : Byte) (c : Bool) :
    v >>> 1 ||| flagByte c <<< 7 = BitVec.ofNat 8 (v.toNat / 2 + 128 * c.toNat) := by
  have hfree : v >>> 1 &&& flagByte c <<< 7 = 0#8 := by
    ext k hk
    obtain hlow | rfl : k < 7 ∨ k = 7 := by omega
    · simp [hlow]
    · simp
  rw [← BitVec.add_eq_or_of_and_eq_zero _ _ hfree, Byte.ushiftRight_one, flagByte_shiftLeft_seven, BitVec.ofNat_add]

/-! ### The operations as arithmetic (R140 to R146) -/

variable (v : Byte) (f : Flags)

theorem shiftLeft_eq_double :
    shiftLeft v f =
      let r := BitVec.ofNat 8 (2 * v.toNat)
      (r, { zn f r with c := decide (128 ≤ v.toNat) }) := by
  simp only [shiftLeft, Byte.shiftLeft_one, Byte.getLsbD_seven_eq_decide]
  rfl

theorem shiftRight_eq_half :
    shiftRight v f =
      let r := BitVec.ofNat 8 (v.toNat / 2)
      (r, { zn f r with c := decide (v.toNat % 2 = 1) }) := by
  simp only [shiftRight, Byte.ushiftRight_one, Byte.getLsbD_zero_eq_decide]
  rfl

theorem rotateLeft_eq_double_add :
    rotateLeft v f =
      let r := BitVec.ofNat 8 (2 * v.toNat + f.c.toNat)
      (r, { zn f r with c := decide (128 ≤ v.toNat) }) := by
  simp only [rotateLeft, Byte.rotateLeft_carry, Byte.getLsbD_seven_eq_decide]
  rfl

theorem rotateRight_eq_half_add :
    rotateRight v f =
      let r := BitVec.ofNat 8 (v.toNat / 2 + 128 * f.c.toNat)
      (r, { zn f r with c := decide (v.toNat % 2 = 1) }) := by
  simp only [rotateRight, Byte.rotateRight_carry, Byte.getLsbD_zero_eq_decide]
  rfl

theorem increment_eq_add_one :
    increment v f = let r := BitVec.ofNat 8 (v.toNat + 1); (r, zn f r) := by
  have hsum : v + 1 = BitVec.ofNat 8 (v.toNat + 1) := by bv_omega
  simp only [increment, hsum, Flags.setZN_eq_zn]

/-- Minus 1 is plus 255, modulo 256. -/
theorem decrement_eq_add_255 :
    decrement v f = let r := BitVec.ofNat 8 (v.toNat + 255); (r, zn f r) := by
  have hdiff : v - 1 = BitVec.ofNat 8 (v.toNat + 255) := by bv_omega
  simp only [decrement, hdiff, Flags.setZN_eq_zn]

/-! ### The statements -/

/-- Settles O12: each operation is applied to the accumulator or to a byte of memory, and is the arithmetic one. -/
theorem shiftsAndRotatesMoveOneBit : Obligations.ShiftsAndRotatesMoveOneBit :=
  ⟨modifyRule_of_effect (forms_tableForms _) rfl (fun _ _ => rfl) shiftLeft_eq_double,
    modifyRule_of_effect (forms_tableForms _) rfl (fun _ _ => rfl) shiftRight_eq_half,
    modifyRule_of_effect (forms_tableForms _) rfl (fun _ _ => rfl) rotateLeft_eq_double_add,
    modifyRule_of_effect (forms_tableForms _) rfl (fun _ _ => rfl) rotateRight_eq_half_add⟩

/-- Settles O13: both are read-modify-write instructions whose operation leaves C and V alone. -/
theorem memoryIncrementAndDecrementWrap : Obligations.MemoryIncrementAndDecrementWrap :=
  ⟨modifyRule_of_effect (forms_tableForms _) rfl (fun _ _ => rfl) increment_eq_add_one,
    modifyRule_of_effect (forms_tableForms _) rfl (fun _ _ => rfl) decrement_eq_add_255⟩

/-- Settles O14: each is its register loaded with the byte after or before its own. -/
theorem registerIncrementAndDecrementWrap : Obligations.RegisterIncrementAndDecrementWrap :=
  ⟨quietRule_of_effect rfl rfl fun s => s.loadX_eq_zn (s.x + 1),
    quietRule_of_effect rfl rfl fun s => s.loadY_eq_zn (s.y + 1),
    quietRule_of_effect rfl rfl fun s => s.loadX_eq_zn (s.x - 1),
    quietRule_of_effect rfl rfl fun s => s.loadY_eq_zn (s.y - 1)⟩

end Sys2Proof.Machine
end

section
/-! PROOFS. The statements about branches, jumps and subroutines (44_branch_jump_subroutine.md): one rule for the eight
branches, from the condition the mnemonic tests and its row of the opcode table; JMP by its operand in memory; and JSR
and RTS by the word push and the word pull they are made of. -/

namespace Sys2Proof.Machine

open Sys2Proof.Spec

/-! ### The branches (R160 to R168) -/

/-- The offset's byte, widened with its sign, is the offset as a word (R83). -/
theorem signExtend_ofInt8 {r : Int} (h : -128 ≤ r) (h' : r ≤ 127) :
    (BitVec.ofInt 8 r).signExtend 16 = BitVec.ofInt 16 r :=
  congrArg (BitVec.ofInt 16) (toInt_ofInt8 h h')

variable {m : Mnemonic} {c : Bool}

/-- A mnemonic that tests a condition makes no data access (R160). -/
theorem busRole_of_branchCondition {f : Flags} (h : branchCondition f m = some c) : busRole m = .quiet := by
  cases m with
  | beq | bne | bcc | bcs | bmi | bpl | bvc | bvs => rfl
  | _ => cases h

/-- A mnemonic that tests a condition jumps exactly when it holds (R160). -/
theorem State.effect_of_branchCondition {s : State} (h : branchCondition s.flags m = some c) (op : Resolved) :
    s.effect op m = if c then s.jumpResolved op else s := by
  cases m with
  | beq | bne | bcc | bcs | bmi | bpl | bvc | bvs => cases h; rfl
  | _ => cases h

/-- An instruction with a Relative operand that tests a condition is a branch on it (R160, R83). -/
theorem exec_eq_branch {i : Instr} {s : State} {r : Int} (ho : i.operand = .relative r)
    (hc : branchCondition s.flags i.mnemonic = some c) : exec i s = .next (s.branch c r) := by
  rw [exec_eq_effect, ho, State.resolve_relative, State.effect_of_branchCondition hc]
  rfl

/-- A branch costs its base, one more if taken, and one more if taken into another page than that of PC (R235, R83). -/
theorem instrCycles_eq_of_branch {i : Instr} {s : State} {r : Int} {e : Entry} (ho : i.operand = .relative r)
    (hc : branchCondition s.flags i.mnemonic = some c) (he : findEntry i.opcode = some e) (hp : e.pageExtra = false) :
    instrCycles i s =
      if c then e.base + 1 + (if hiByte (s.relativeTarget r) ≠ hiByte s.pc then 1 else 0) else e.base := by
  simp only [instrCycles, he, hp, ho, State.resolve_relative, branchExtra, hc]
  cases c
  · rfl
  · simp [pagesDiffer_eq_decide, Bool.toNat, Bool.cond_decide, Nat.add_assoc]

/-- What a branch does, from its row of the opcode table and the condition its mnemonic tests. -/
theorem branchRule_of_findEntry {mk : Int → Instr} {opcode : Byte} {cond : Flags → Bool}
    (he : findEntry opcode = some ⟨opcode, .rel mk, 2, false⟩)
    (hcond : ∀ f r, branchCondition f (mk r).mnemonic = some (cond f)) : BranchRule mk opcode cond := by
  intro r s h h'
  obtain ⟨hop, ho⟩ : (mk r).opcode = opcode ∧ (mk r).operand = .relative r := (findEntry_some he).1 r
  have hc := hcond s.flags r
  have htarget : s.pc + (BitVec.ofInt 8 r).signExtend 16 = s.relativeTarget r := by
    rw [signExtend_ofInt8 h h', State.relativeTarget]
  refine ⟨hop, ho, ?_, ?_, ?_⟩
  · rw [exec_eq_branch ho hc, State.branch_eq, htarget]
  · rw [dataAccesses_eq_accesses, busRole_of_branchCondition hc]
    rfl
  · rw [htarget]
    exact instrCycles_eq_of_branch ho hc (hop ▸ he) rfl

/-- Settles O15: each branch has a row with 2 cycles and no page extra of its own, and tests its condition. -/
theorem branchesTakeTheTargetOnTheirCondition : Obligations.BranchesTakeTheTargetOnTheirCondition :=
  ⟨branchRule_of_findEntry rfl fun _ _ => rfl, branchRule_of_findEntry rfl fun _ _ => rfl,
    branchRule_of_findEntry rfl fun _ _ => rfl, branchRule_of_findEntry rfl fun _ _ => rfl,
    branchRule_of_findEntry rfl fun _ _ => rfl, branchRule_of_findEntry rfl fun _ _ => rfl,
    branchRule_of_findEntry rfl fun _ _ => rfl, branchRule_of_findEntry rfl fun _ _ => rfl⟩

/-! ### JMP (R169) -/

/-- JMP has an operand in memory. -/
theorem operand_of_jmp {i : Instr} (h : i.mnemonic = .jmp) : ∃ m, i.operand = .memory m := by
  cases i with
  | jmpAbs | jmpInd => exact ⟨_, rfl⟩
  | _ => cases h

/-- A jump through `{hi, lo}` reads both bytes of its target in the page of `hi` (R80, R169). -/
theorem State.samePagePointer_mkWord (s : State) (hi lo : Byte) :
    s.samePagePointer (mkWord hi lo) = mkWord (s.read (mkWord hi (lo + 1))) (s.read (mkWord hi lo)) := by
  rw [State.samePagePointer, hiByte_mkWord, loByte_mkWord]

/-- Settles O16: JMP jumps to its resolved address, which in Indirect is the word of the same-page pointer. -/
theorem jmpSetsThePc : Obligations.JmpSetsThePc := by
  refine ⟨forms_tableForms .jmp, fun i s hm => ?_, fun hi lo s => ?_⟩
  · obtain ⟨o, ho⟩ := operand_of_jmp hm
    refine ⟨s.effectiveAddress o, by rw [ho, State.resolve_memory], ?_, ?_⟩
    · rw [exec_eq_effect, hm, ho]
      rfl
    · rw [dataAccesses_eq_accesses, hm]
      rfl
  · rw [← State.samePagePointer_mkWord]
    rfl

/-! ### JSR and RTS (R170, R171) -/

/-- JSR is a word push of the address of its own last byte, and a jump (R170). -/
theorem exec_jsrAbs (a : Word) (s : State) :
    exec (.jsrAbs a) s = .next { s.pushWord (s.pc - 1) with pc := a } := rfl

/-- RTS is a word pull, and a jump past the word (R171). -/
theorem exec_rts (s : State) : exec .rts s = .next { s.popWord with pc := s.topWord + 1 } := rfl

/-- On the bus a word pull is the read of its low byte, then of its high byte (R39). -/
theorem pullAccesses_two (s : State) :
    pullAccesses s 2 = [s.reads (stackSlot (s.sp + 1)), s.reads (stackSlot (s.sp + 2))] := by
  simp [pullAccesses, List.range_succ, Byte.add_two]

/-- Settles O17, by what a word push stores and what it is on the bus. -/
theorem jsrPushesTheReturnAddress : Obligations.JsrPushesTheReturnAddress := by
  refine ⟨forms_tableForms .jsr, fun a s => ⟨_, exec_jsrAbs a s, s.stores_pushWord (s.pc - 1), ?_,
    pushAccesses_pushWord s (s.pc - 1)⟩⟩
  simp only [BitVec.ofNat_eq_ofNat, Byte.sub_two]
  rfl

/-- Settles O18, by the word a word pull gives and what it is on the bus. -/
theorem rtsReturnsPastThePoppedWord : Obligations.RtsReturnsPastThePoppedWord := by
  refine ⟨rfl, rfl, fun s => ⟨_, exec_rts s, ?_, pullAccesses_two s⟩⟩
  simp only [BitVec.ofNat_eq_ofNat, Byte.add_two]
  rfl

/-- A return from a pushed word, wherever the subroutine left PC, restores SP and goes past the word (R171, R39). -/
theorem exec_rts_pushWord (s : State) (w pc : Word) :
    exec .rts { s.pushWord w with pc := pc } = .next { s with pc := w + 1, mem := (s.pushWord w).mem } := by
  have htop : State.topWord { s.pushWord w with pc := pc } = w := s.topWord_pushWord w
  rw [exec_rts, htop]
  simp

/-- Settles O19: JSR pushes the word one before the return address. -/
theorem rtsAfterJsrReturnsAfterTheCall : Obligations.RtsAfterJsrReturnsAfterTheCall := by
  refine fun a s => ⟨_, exec_jsrAbs a s, fun pc => ?_⟩
  exact (exec_rts_pushWord s (s.pc - 1) pc).trans (by rw [BitVec.sub_add_cancel])

end Sys2Proof.Machine
end

section
/-! PROOFS. The statements about stack, flag and system instructions (45_stack_flag_system.md): the pushes and the pulls
by the stack operation each is made of, BRK by the interrupt entry it shares with NMI and IRQ, the flag instructions by
their effect, and NOP's step by its row of the opcode table. -/

namespace Sys2Proof.Machine

open Sys2Proof.Spec

/-! ### The pushes (R180, R182) -/

/-- PHA is a push of A (R180). -/
theorem exec_pha (s : State) : exec .pha s = .next (s.push s.a) := rfl

/-- PHP is a push of the status byte with bit 4 set (R182). -/
theorem exec_php (s : State) : exec .php s = .next (s.push (s.flags.toByte true)) := rfl

/-- The status byte as a number: each bit with its weight, bit 5 always set (R16, R17). -/
theorem Flags.toNat_toByte (f : Flags) (b4 : Bool) :
    (f.toByte b4).toNat =
      0x20 + 0x10 * b4.toNat + 128 * f.n.toNat + 64 * f.v.toNat + 8 * f.d.toNat + 4 * f.i.toNat + 2 * f.z.toNat +
        f.c.toNat := by
  obtain ⟨n, v, b, d, i, z, c⟩ := f
  revert n v d i z c b4
  simp only [Flags.toByte]
  decide

/-- Settles O20, by what a push stores and what it is on the bus. -/
theorem pushesOfPhaAndPhp : Obligations.PushesOfPhaAndPhp :=
  ⟨⟨rfl, rfl, fun s => ⟨_, exec_pha s, s.stores_push _, rfl, pushAccesses_push s _⟩⟩, rfl, rfl, fun s =>
    ⟨_, _, exec_php s, s.stores_push _, rfl, pushAccesses_push s _, s.flags.toNat_toByte true⟩⟩

/-! ### The pulls (R181, R183, R184) -/

/-- PLA is a pull into A, with Z and N set from the byte (R181). -/
theorem exec_pla (s : State) : exec .pla s = .next (s.pop.loadA s.top) := rfl

/-- PLP is a pull into the six flags (R183). -/
theorem exec_plp (s : State) : exec .plp s = .next { s.pop with flags := s.flags.fromByte s.top } := rfl

/-- RTI is the return from an interrupt (R184). -/
theorem exec_rti (s : State) : exec .rti s = .next s.interruptReturn := rfl

/-- On the bus a pull is the read of its byte (R38). -/
theorem pullAccesses_one (s : State) : pullAccesses s 1 = [s.reads (stackSlot (s.sp + 1))] := by
  simp [pullAccesses]

theorem Byte.add_three (p : Byte) : p + 3#8 = p + 1#8 + 1#8 + 1#8 := by bv_omega

/-- On the bus a return from an interrupt is the read of the status byte, then of PC's low and high byte (R210). -/
theorem pullAccesses_three (s : State) :
    pullAccesses s 3 =
      [s.reads (stackSlot (s.sp + 1)), s.reads (stackSlot (s.sp + 2)), s.reads (stackSlot (s.sp + 3))] := by
  simp [pullAccesses, List.range_succ, Byte.add_two, Byte.add_three]

/-- Settles O21: both pull the byte above the stack pointer. -/
theorem pullsOfPlaAndPlp : Obligations.PullsOfPlaAndPlp :=
  ⟨⟨rfl, rfl, fun s => ⟨_, _, rfl, exec_pla s, rfl, pullAccesses_one s⟩⟩, rfl, rfl, fun s =>
    ⟨_, _, rfl, exec_plp s, rfl, pullAccesses_one s⟩⟩

/-- Settles O22: a pull of the status byte and then a word pull, with SP and the slots counted one pull at a time. -/
theorem rtiRestoresStatusAndPc : Obligations.RtiRestoresStatusAndPc := by
  refine ⟨rfl, rfl, fun s => ⟨_, _, rfl, exec_rti s, ?_, pullAccesses_three s⟩⟩
  simp only [BitVec.ofNat_eq_ofNat, Byte.add_two, Byte.add_three]
  rfl

/-! ### BRK (R185, R207) -/

/-- An entry stores PC's two bytes and the status byte in its three cells, and no other byte (R207). -/
theorem State.stores_interruptEntry (s : State) (vector : Word) (b4 : Bool) :
    Stores s (s.interruptEntry vector b4) (entryCells s s.pc b4) := by
  refine ⟨by simp [entryCells, Memory.read_write, stackSlot_inj, Byte.sub_two], fun addr h => ?_⟩
  simp only [entryCells, List.map_cons, List.map_nil, List.mem_cons, List.not_mem_nil, or_false, not_or,
    BitVec.ofNat_eq_ofNat, Byte.sub_two] at h
  obtain ⟨hpch, hpcl, hstatus⟩ := h
  simp only [State.read_eq, State.interruptEntry_read, BitVec.ofNat_eq_ofNat, hpch, hpcl, hstatus, if_false]

theorem Byte.sub_three (p : Byte) : p - 3#8 = p - 1#8 - 1#8 - 1#8 := by bv_omega

/-- An interrupt entry enters through its vector, which no stack cell overlaps (R207, R41). -/
theorem State.enters_interruptEntry (s : State) (b4 : Bool) {vector : Word}
    (hv : hiByte vector = 0xFF ∧ hiByte (vector + 1) = 0xFF) :
    Enters s (s.interruptEntry vector b4) s.pc vector (vector + 1) b4 := by
  refine ⟨s.stores_interruptEntry vector b4, ?_⟩
  rw [State.interruptEntry_spec s vector b4 hv.1 hv.2]
  simp [State.readWord, Byte.sub_three]

/-- BRK steps over its padding byte and enters through the IRQ vector with bit 4 set (R185). -/
theorem exec_brk (s : State) :
    exec .brk s = .next (State.interruptEntry { s with pc := s.pc + 1 } irqVector true) := rfl

/-- Settles O23: BRK is an interrupt entry in the state with PC past the padding byte. -/
theorem brkEntersThroughTheIrqVector : Obligations.BrkEntersThroughTheIrqVector :=
  ⟨rfl, rfl, fun s => ⟨_, exec_brk s, State.enters_interruptEntry { s with pc := s.pc + 1 } true irqVector_page,
    entryAccesses_interruptEntry { s with pc := s.pc + 1 } true irqVector_page⟩⟩

/-! ### The flag instructions and NOP (R186 to R193) -/

/-- Settles O24: each has its one flag written as its effect. -/
theorem flagInstructionsWriteOneFlag : Obligations.FlagInstructionsWriteOneFlag :=
  ⟨quietRule_of_effect rfl rfl fun _ => rfl, quietRule_of_effect rfl rfl fun _ => rfl,
    quietRule_of_effect rfl rfl fun _ => rfl, quietRule_of_effect rfl rfl fun _ => rfl,
    quietRule_of_effect rfl rfl fun _ => rfl, quietRule_of_effect rfl rfl fun _ => rfl,
    quietRule_of_effect rfl rfl fun _ => rfl⟩

/-- The fetch of an opcode whose row has no operand byte finds the row's instruction and moves PC by one (R50, R70). -/
theorem State.fetch_of_findEntry_noOperand {s : State} {op : Byte} {i : Instr} {base : Nat} {pageExtra : Bool}
    (h : findEntry s.opcodeByte = some ⟨op, .none i, base, pageExtra⟩) :
    s.fetch = .ok i [] ∧ s.fetched = { s with pc := s.pc + 1 } := by
  have hlen : instrLength s.opcodeByte = 1 := by simp only [instrLength, h]; rfl
  have hbytes : s.instrBytes = [s.opcodeByte] := by
    rw [State.instrBytes, hlen]
    simp [State.bytesAt, State.opcodeByte]
  refine ⟨?_, by rw [State.fetched, hlen]; rfl⟩
  rw [State.fetch, hbytes, decode_cons, h]
  rfl

/-- Settles O25: NOP's row has no operand byte, and its effect is the state itself. -/
theorem nopOnlyAdvancesThePc : Obligations.NopOnlyAdvancesThePc := by
  have hquiet : QuietRule .nop 0xEA fun s => s := quietRule_of_effect rfl rfl fun _ => rfl
  refine ⟨hquiet, fun s hservice hop => ?_⟩
  have hrow : findEntry s.opcodeByte = some ⟨0xEA, .none .nop, 2, false⟩ := by rw [State.opcodeByte, hop]; rfl
  obtain ⟨hfetch, hfetched⟩ := State.fetch_of_findEntry_noOperand hrow
  obtain ⟨-, -, hexec⟩ := hquiet
  have hnext : exec .nop s.fetched = .next { s with pc := s.pc + 1 } := hfetched ▸ (hexec s.fetched).1
  exact (step_of_fetch_ok (s.service_eq_none.2 hservice) hfetch hnext).1

end Sys2Proof.Machine
end

section
/-! PROOFS. The statements about exceptions (60_exceptions.md): which entry a step makes as an interrupt entry through
its vector, RTI as its inverse on the stack, and a step by what its fetch finds, a legal opcode or one of R55. -/

namespace Sys2Proof.Machine

open Sys2Proof.Spec

variable {s t : State}

/-! ### The entries (R200, R203 to R209) -/

/-- A step with an NMI pending is the entry through the NMI vector, with the latch cleared (R200, R203). -/
theorem step_enters_of_nmi (h : s.nmiPending = true) :
    step s = .next s.nmiEntry ∧ Enters { s with nmiPending := false } s.nmiEntry s.pc 0xFFFA 0xFFFB false :=
  ⟨(step_of_nmi (s.service_eq_nmi.2 h)).1,
    State.enters_interruptEntry { s with nmiPending := false } false nmiVector_page⟩

/-- A step with an unmasked IRQ and no NMI pending is the entry through the IRQ vector, with the latch cleared (R200,
R204). -/
theorem step_enters_of_irq (hnmi : s.nmiPending = false) (hirq : s.irqPending = true) (hi : s.flags.i = false) :
    step s = .next s.irqEntry ∧ Enters { s with irqPending := false } s.irqEntry s.pc 0xFFFE 0xFFFF false :=
  ⟨(step_of_irq (s.service_eq_irq.2 ⟨hnmi, hirq, hi⟩)).1,
    State.enters_interruptEntry { s with irqPending := false } false irqVector_page⟩

/-- Settles O34: the three are one interrupt entry, BRK's in the state with PC past its padding byte. -/
theorem interruptEntriesShareOneShape : Obligations.InterruptEntriesShareOneShape := by
  refine ⟨fun s h => ⟨_, step_enters_of_nmi h⟩, fun s hnmi hirq hi => ⟨_, step_enters_of_irq hnmi hirq hi⟩,
    fun s => ⟨_, exec_brk s, State.enters_interruptEntry { s with pc := s.pc + 1 } true irqVector_page⟩,
    fun f b4 => ?_⟩
  obtain ⟨-, -, h5, h4, -⟩ := f.getLsbD_toByte b4
  exact ⟨h5, h4⟩

/-! ### What a step fetches, by its opcode (R55, R202) -/

/-- An opcode that is not in the list of R55 is fetched with its operand bytes as an instruction. -/
theorem State.fetch_of_not_mem_illegalOpcodes (h : s.opcodeByte ∉ illegalOpcodes) : ∃ i, s.fetch = .ok i [] :=
  s.fetch_cases.resolve_right fun ⟨hnone, _⟩ => h ((findEntry_eq_none_iff _).1 hnone)

/-- An opcode of the list of R55 is fetched alone, and refused. -/
theorem State.fetch_of_mem_illegalOpcodes (h : s.opcodeByte ∈ illegalOpcodes) :
    s.fetch = .illegalOpcode s.opcodeByte ∧ fetchAccesses s = [s.reads s.pc] := by
  have hnone : findEntry s.opcodeByte = none := (findEntry_eq_none_iff _).2 h
  have hlen : instrLength s.opcodeByte = 1 := by simp only [instrLength, hnone]
  constructor
  · rw [State.fetch, State.instrBytes, hlen]
    simpa [State.bytesAt, State.opcodeByte] using (decode_eq_illegalOpcode_iff _ _).2 hnone
  · simp [fetchAccesses, hlen]

/-! ### A request that waits (R204, R206, R220) -/

/-- Settles O35: an NMI entry leaves the IRQ latch, and so does every instruction. -/
theorem maskedIrqStaysLatched : Obligations.MaskedIrqStaysLatched := by
  refine ⟨fun s hnmi hirq => ?_, fun s hnmi hirq hi hop => ?_⟩
  · obtain ⟨hstep, -, hentry⟩ := step_enters_of_nmi hnmi
    exact ⟨_, hstep, rfl, hirq, rfl, congrArg State.pc hentry⟩
  · obtain ⟨i, hfetch⟩ := State.fetch_of_not_mem_illegalOpcodes hop
    obtain ⟨t, ht⟩ := exec_isNext i s.fetched
    obtain ⟨hstep, -⟩ := step_of_fetch_ok (s.service_eq_none.2 ⟨hnmi, fun _ => hi⟩) hfetch ht
    obtain ⟨-, -, -, -, -, -, hnmi', hirq'⟩ := registersAndMemoryHaveTheirWriters i _ _ ht
    exact ⟨i, t, hfetch, ht, hstep, hirq'.trans hirq, hnmi'.trans hnmi⟩

/-- Settles O36: CLI and SEI write I alone, and the next step's check reads it. -/
theorem flagIChangeTakesEffectAtTheNextStep : Obligations.FlagIChangeTakesEffectAtTheNextStep := by
  intro s hnmi hirq
  obtain ⟨-, -, ⟨-, -, hcli⟩, ⟨-, -, hsei⟩, -⟩ := flagInstructionsWriteOneFlag
  obtain ⟨hstep, henters⟩ := step_enters_of_irq (s := { s with flags := { s.flags with i := false } }) hnmi hirq rfl
  exact ⟨⟨_, _, (hcli s).1, hstep, rfl, henters⟩, _, (hsei s).1, hnmi, fun _ => rfl⟩

/-! ### The return (R184, R210) -/

/-- The byte pulled after an entry is the status byte it pushed (R207). -/
theorem State.top_interruptEntry (s : State) (vector : Word) (b4 : Bool) :
    (s.interruptEntry vector b4).top = s.flags.toByte b4 :=
  (s.pushWord s.pc).top_push _

/-- The word pulled after that byte is the PC the entry saved (R207). -/
theorem State.topWord_pop_interruptEntry (s : State) (vector : Word) (b4 : Bool) :
    (s.interruptEntry vector b4).pop.topWord = s.pc := by
  simp [State.topWord, State.top, Memory.read_write, stackSlot_inj]

/-- A return after an entry is the interrupted state but for memory: B, which the status byte does not give back, is
kept by both (R210). -/
theorem State.interruptReturn_interruptEntry (s : State) (vector : Word) (b4 : Bool) :
    (s.interruptEntry vector b4).interruptReturn = { s with mem := (s.interruptEntry vector b4).mem } := by
  have hflags : Flags.fromByte (s.flags.toByte b4) { s.flags with i := true } = s.flags := Flags.fromByte_toByte _ _ _
  rw [State.interruptReturn, State.top_interruptEntry, State.topWord_pop_interruptEntry, State.interruptEntry_flags,
    hflags]
  simp [State.popWord, State.pop]

/-- RTI does not read PC, so it returns from an entry at any PC (R184, R210). -/
theorem exec_rti_interruptEntry (s : State) (vector : Word) (b4 : Bool) (pc : Word) :
    exec .rti { s.interruptEntry vector b4 with pc := pc } =
      .next { s with mem := (s.interruptEntry vector b4).mem } :=
  congrArg Host.Outcome.next (s.interruptReturn_interruptEntry vector b4)

/-- Settles O37, by the return after an entry in the state with the request's latch cleared. -/
theorem rtiUndoesAnInterruptEntry : Obligations.RtiUndoesAnInterruptEntry :=
  ⟨fun s hnmi => ⟨_, (step_enters_of_nmi hnmi).1,
      exec_rti_interruptEntry { s with nmiPending := false } nmiVector false⟩,
    fun s hnmi hirq hi => ⟨_, (step_enters_of_irq hnmi hirq hi).1,
      exec_rti_interruptEntry { s with irqPending := false } irqVector false⟩⟩

/-! ### The step as a transaction (R200, R202, R237) -/

/-- A step that answers a state leaves it and reports its cycle number (R200). -/
theorem transact_step_of_next {n : Nat} (h : step s = .next t) (hn : stepCycles s = some n) :
    transact s .step = t ∧ report s .step = .cycles n := by
  simp only [transact, report, h, hn, Option.getD_some, and_self]

/-- A step that faults leaves PC past the opcode byte and reports the error (R202). -/
theorem transact_step_of_fault {op : Byte} {pc : Word} (h : step s = .fault (.illegalOpcode op pc)) :
    transact s .step = { s with pc := s.pc + 1 } ∧ report s .step = .illegalOpcode op pc := by
  simp only [transact, report, h, State.afterIllegalOpcode, and_self]

/-- A step that services an interrupt or finds a legal opcode answers a state and a cycle number (R200, R237). -/
theorem step_next_of_not_illegal (h : ¬(NoService s ∧ s.opcodeByte ∈ illegalOpcodes)) :
    ∃ t n, step s = .next t ∧ stepCycles s = some n := by
  cases hs : s.service with
  | nmi =>
    obtain ⟨hstep, -, hcycles⟩ := step_of_nmi hs
    exact ⟨_, _, hstep, hcycles⟩
  | irq =>
    obtain ⟨hstep, -, hcycles⟩ := step_of_irq hs
    exact ⟨_, _, hstep, hcycles⟩
  | none =>
    obtain ⟨i, hfetch⟩ := State.fetch_of_not_mem_illegalOpcodes fun hop => h ⟨s.service_eq_none.1 hs, hop⟩
    obtain ⟨t, ht⟩ := exec_isNext i s.fetched
    obtain ⟨hstep, -, hcycles⟩ := step_of_fetch_ok hs hfetch ht
    exact ⟨_, _, hstep, hcycles⟩

/-- Settles O38, by what the fetch finds where no interrupt is serviced. -/
theorem stepFaultsExactlyOnAnIllegalOpcode : Obligations.StepFaultsExactlyOnAnIllegalOpcode := by
  refine fun s => ⟨fun ⟨hservice, hop⟩ => ?_, fun h => ?_⟩
  · obtain ⟨hfetch, hreads⟩ := State.fetch_of_mem_illegalOpcodes hop
    obtain ⟨hstep, hacc, hcycles⟩ := step_of_fetch_illegal (s.service_eq_none.2 hservice) hfetch
    obtain ⟨hleft, hreport⟩ := transact_step_of_fault hstep
    exact ⟨hstep, hleft, hreport, hcycles, hacc.trans hreads⟩
  · obtain ⟨t, n, hstep, hcycles⟩ := step_next_of_not_illegal h
    exact ⟨t, n, hstep, hcycles, transact_step_of_next hstep hcycles⟩

/-! ### The instruction a step runs (R49, R200, R235) -/

/-- Fewer bytes from an address are the first of more bytes from it. -/
theorem State.take_bytesAt (s : State) (addr : Word) {k n : Nat} (h : k ≤ n) :
    (s.bytesAt addr n).take k = s.bytesAt addr k := by
  simp [State.bytesAt, ← List.map_take, List.take_range, h]

/-- Where the longest instruction's bytes at PC decode to an instruction, a fetch finds it, and its length is what they
have beyond the rest (R50, R70). -/
theorem State.fetch_of_decode {i : Instr} {rest : List Byte} (h : decode (s.bytesAt s.pc 3) = .ok i rest) :
    s.fetch = .ok i [] ∧ instrLength s.opcodeByte = 3 - rest.length := by
  obtain ⟨hwf, hbytes⟩ := everyDecodedWordIsAnEncoding _ _ _ h
  obtain ⟨hdecode, hlen, hle⟩ := decodeOfEncodeIsTheInstruction i [] hwf
  have hop : s.opcodeByte = i.opcode := by
    simpa [State.bytesAt, List.range_succ, encode, State.opcodeByte] using congrArg List.head? hbytes
  have hcount : 3 = (encode i).length + rest.length := by
    simpa using congrArg List.length hbytes
  have hinstr : s.instrBytes = encode i := by
    rw [State.instrBytes, hop, hlen, ← s.take_bytesAt s.pc hle, hbytes, List.take_left]
  constructor
  · rw [State.fetch, hinstr]
    simpa using hdecode
  · rw [hop, hlen]
    omega

/-- Settles O40: the fetch finds the instruction, and the state it runs in is the one after the fetch. -/
theorem stepRunsTheDecodedInstruction : Obligations.StepRunsTheDecodedInstruction := by
  intro s i rest hservice hdecode
  obtain ⟨hfetch, hlen⟩ := State.fetch_of_decode hdecode
  obtain ⟨t, ht⟩ := exec_isNext i s.fetched
  obtain ⟨hstep, hacc, hcycles⟩ := step_of_fetch_ok (s.service_eq_none.2 hservice) hfetch ht
  obtain ⟨-, hreport⟩ := transact_step_of_next hstep hcycles
  rw [← hlen]
  exact ⟨hstep.trans ht.symm, ⟨t, ht, hacc⟩, hcycles, hreport⟩

end Sys2Proof.Machine
end

section
/-! PROOFS. The statements about reset, cycle numbers and runs (70_reset_and_hazards.md): the class table agrees with
every row of the opcode table, and an instruction is its row's but for the operand's value; a run is a walk to the first
state that ends it. -/

namespace Sys2Proof.Machine

open Sys2Proof.Spec

variable {s t u : State}

/-! ### Reset (R231, R232) -/

/-- Settles O44: the reset sequence is the record update it names, after a power-on as well. -/
theorem resetWritesOnlyIAndSpAndPc : Obligations.ResetWritesOnlyIAndSpAndPc :=
  ⟨fun _ => ⟨rfl, rfl⟩, fun _ => rfl⟩

/-! ### The cycle numbers (R235, R236) -/

/-- The instruction a row of the opcode table makes has the row's opcode (R53). -/
theorem opcode_sampleInstr {e : Entry} (h : e ∈ opcodeTable) : (sampleInstr e).opcode = e.opcode := by
  have hsound := opcodeTable_sound e h
  obtain ⟨op, field, base, pageExtra⟩ := e
  cases field with
  | none i => exact hsound.1
  | byte make | rel make | word make => exact (hsound 0).1

/-- Each row of the opcode table that is no branch has the base and the page extra of its class (R59, R236). -/
theorem classCycles_sampleInstr : ∀ e ∈ opcodeTable, (sampleInstr e).operand.mode ≠ .relative → ∀ crossed : Bool,
    classCycles (sampleInstr e) crossed = some (e.base + (e.pageExtra && crossed).toNat) := by
  decide +kernel

/-- The class of an instruction is its mnemonic and its mode (R236). -/
theorem classCycles_congr {i j : Instr} (hm : i.mnemonic = j.mnemonic) (hmode : i.operand.mode = j.operand.mode)
    (crossed : Bool) : classCycles i crossed = classCycles j crossed := by
  simp only [classCycles, hm, hmode]

/-- The class table gives the number of the row of the instruction's opcode (R59, R236). -/
theorem exists_findEntry_classCycles {i : Instr} (h : i.operand.mode ≠ .relative) :
    ∃ e, findEntry i.opcode = some e ∧
      ∀ crossed, classCycles i crossed = some (e.base + (e.pageExtra && crossed).toNat) := by
  obtain ⟨e, he, hm, hmode, hop⟩ := exists_sampleInstr_eq i
  refine ⟨e, ?_, fun crossed => ?_⟩
  · rw [← hop, opcode_sampleInstr he, findEntry_opcode_of_mem he]
  · rw [← classCycles_congr hm hmode, classCycles_sampleInstr e he (hmode ▸ h)]

/-- An instruction that is no branch tests no condition, so it has no branch extra (R235). -/
theorem branchExtra_of_mode_ne_relative {i : Instr} (h : i.operand.mode ≠ .relative) (f : Flags) (crossed : Bool) :
    branchExtra f crossed i = 0 := by
  cases i with
  | beq r | bne r | bcc r | bcs r | bmi r | bpl r | bvc r | bvs r => exact absurd rfl h
  | _ => rfl

/-- A step that services a request is an entry and takes an entry's cycles (R200, R236). -/
theorem step_of_service (h : ¬NoService s) : ∃ t, step s = .next t ∧ stepCycles s = some entryCycles := by
  cases hs : s.service with
  | nmi =>
    obtain ⟨hstep, -, hcycles⟩ := step_of_nmi hs
    exact ⟨_, hstep, hcycles⟩
  | irq =>
    obtain ⟨hstep, -, hcycles⟩ := step_of_irq hs
    exact ⟨_, hstep, hcycles⟩
  | none => exact absurd (s.service_eq_none.1 hs) h

/-- Settles O55: a non-branch's number is its row's, which is its class's; a step's is that of what it does. -/
theorem cyclesFollowTheClassTable : Obligations.CyclesFollowTheClassTable := by
  refine ⟨fun i s hmode => ?_, fun s i hservice hfetch => ?_, fun s hservice => ?_, fun _ => rfl⟩
  · obtain ⟨e, he, hclass⟩ := exists_findEntry_classCycles hmode
    simp only [hclass, instrCycles, he, branchExtra_of_mode_ne_relative hmode, Nat.add_zero]
  · obtain ⟨t, ht⟩ := exec_isNext i s.fetched
    obtain ⟨hstep, -, hcycles⟩ := step_of_fetch_ok (s.service_eq_none.2 hservice) hfetch ht
    exact ⟨hcycles, (transact_step_of_next hstep hcycles).2⟩
  · obtain ⟨t, hstep, hcycles⟩ := step_of_service hservice
    exact ⟨hcycles, (transact_step_of_next hstep hcycles).2⟩

/-! ### Runs (R233, R237) -/

variable {stopAt : Option Word}

/-- A run over the steps of a walk and more is the run from the walk's last state with the steps left. -/
theorem State.run_of_walk {n : Nat} (h : Walk stopAt n s u) (k : Nat) : s.run stopAt (n + k) = u.run stopAt k := by
  induction n generalizing s with
  | zero =>
    obtain rfl : s = u := h
    rw [Nat.zero_add]
  | succ n ih =>
    obtain ⟨hpc, t, hstep, hwalk⟩ := h
    rw [Nat.succ_add, State.run_of_next hpc hstep, ih hwalk]

/-- A run with `k` steps left goes no further: it is at its stop address, or its steps are used up, or its next step
faults (R237). -/
def State.EndsRun (u : State) (stopAt : Option Word) (k : Nat) : Prop :=
  some u.pc = stopAt ∨
    some u.pc ≠ stopAt ∧ (k = 0 ∨ 0 < k ∧ ∃ op pc, step u = .fault (.illegalOpcode op pc))

/-- A run's steps split into those of a walk and those left where it ends. -/
theorem exists_walk_endsRun (s : State) (stopAt : Option Word) (budget : Nat) :
    ∃ n k u, n + k = budget ∧ Walk stopAt n s u ∧ u.EndsRun stopAt k := by
  induction budget generalizing s with
  | zero =>
    by_cases hpc : some s.pc = stopAt
    · exact ⟨0, 0, s, rfl, rfl, .inl hpc⟩
    · exact ⟨0, 0, s, rfl, rfl, .inr ⟨hpc, .inl rfl⟩⟩
  | succ budget ih =>
    by_cases hpc : some s.pc = stopAt
    · exact ⟨0, budget + 1, s, Nat.zero_add _, rfl, .inl hpc⟩
    · rcases step_next_or_fault s with ⟨t, hstep⟩ | hfault
      · obtain ⟨n, k, u, rfl, hwalk, hend⟩ := ih t
        exact ⟨n + 1, k, u, Nat.succ_add n k, ⟨hpc, t, hstep, hwalk⟩, hend⟩
      · exact ⟨0, budget + 1, s, Nat.zero_add _, rfl, .inr ⟨hpc, .inr ⟨budget.succ_pos, hfault⟩⟩⟩

/-- A launch starts from power-on at its entry point, or at the word of the reset vector (R233). -/
theorem Launch.start_eq (l : Launch) :
    l.start = { State.powerOn l.mem with
      pc := l.entry.getD (mkWord (l.mem.read 0xFFFD) (l.mem.read 0xFFFC)) } := by
  rw [Launch.start]
  cases l.entry <;> rfl

/-- Settles O57: a run is the walk to the state that ends it, and the run from there takes no step. -/
theorem runsEndAsTheLaunchSays : Obligations.RunsEndAsTheLaunchSays := by
  refine ⟨fun s stopAt budget => ?_, fun l => ⟨rfl, l.start_eq⟩⟩
  obtain ⟨n, k, u, rfl, hwalk, hend⟩ := exists_walk_endsRun s stopAt budget
  refine ⟨n, u, Nat.le_add_right n k, hwalk, ?_⟩
  rw [State.run_of_walk hwalk]
  rcases hend with hpc | ⟨hpc, rfl | ⟨hk, op, pc, hfault⟩⟩
  · rw [State.run_of_stop hpc]
    exact ⟨hpc, rfl⟩
  · rw [State.run_zero hpc]
    exact ⟨rfl, hpc, rfl⟩
  · obtain ⟨k, rfl⟩ := Nat.exists_eq_add_one_of_ne_zero hk.ne'
    rw [State.run_of_fault hpc hfault]
    exact ⟨Nat.lt_add_of_pos_right hk, hpc, hfault, rfl⟩

end Sys2Proof.Machine
end
